-- ==== Sys2Proof/Word.lean ====
section
/-!
DEFINITION. The word types of the P8 module and the small named things that instructions and
events carry: ports, engines, prefix words, host and peer requests. Bits are numbered from 0 and memory
is little-endian (00_scope R2).
-/
namespace Sys2Proof

/-- One instruction word, one v register lane (03 R52). -/
abbrev Word := BitVec 32

/-- One byte of memory. -/
abbrev Byte := BitVec 8

/-- One s register, one special register, one address (03 R52, 07 R169). -/
abbrev DWord := BitVec 64

/-- A set of lanes of one warp, bit L for lane L (03 R47). -/
abbrev LaneMask := BitVec 64

/-- A tensor descriptor, 64 bytes (07 R154). -/
abbrev Desc := BitVec 512

/-- An arithmetic prefix word (04 R74, kind 0): guard, negate, zeroing, rounding override, saturation override and
fourth operand. -/
structure APre where
  guard : BitVec 5
  neg : Bool
  zero : Bool
  rnd : BitVec 3
  sat : BitVec 2
  vc : BitVec 7
  deriving DecidableEq, Repr

/-- A memory prefix word (04 R74, kind 1): guard, negate, scope, order, cache hint and signed byte offset. -/
structure MPre where
  guard : BitVec 5
  neg : Bool
  scope : BitVec 3
  order : BitVec 2
  hint : BitVec 2
  off : BitVec 11
  deriving DecidableEq, Repr

/-- The two host ports (01 R7). -/
inductive Port where
  | a
  | b
  deriving DecidableEq, Repr

/-- The engines that a stop line reaches and that write stop records (10 R230, R234). -/
inductive EngineRef where
  | core (n : Nat)
  | me (n : Nat)
  | copy (n : Nat)
  | coll (die : Nat)
  deriving DecidableEq, Repr

/-- The register storages that hold error-checked words (03 R54, 10 R222). -/
inductive RegFile where
  | v
  | deep
  | warpTable
  | acc
  deriving DecidableEq, Repr

/-- What a host agent asks of the device through a port (08 R192, 11 R258, R259): memory reads and writes at a physical
address, a BAR request that arrives outside the stream bound to the function, or the end of the secured session of a slice's
function, or of PF0 of port A (16) or B (17), asked for through its DOE mailbox (11 R267). -/
inductive HostReq where
  | read (pa size : Nat)
  | write (pa : Nat) (bytes : List (BitVec 8))
  | offStream (slice : Nat)
  | endSession (slice : Nat)
  deriving DecidableEq, Repr

/-- What a UALink peer asks of the slice that it names (08 R192; 11 R277, R278), at an intermediate address: a read, a write, or an atomic
of 15 R378 with its operands and the mode register that rounds it. -/
inductive PeerReq where
  | read (ia size : Nat)
  | write (ia : Nat) (bytes : List (BitVec 8))
  | atomic (ia op : Nat) (data swap : BitVec 64) (nmode : BitVec 32)
  deriving DecidableEq, Repr

/-- A migration key: an opaque identity with the source and destination it names (11 R265). -/
structure MigKey where
  id : Nat
  srcPkg : Nat
  srcSlice : Nat
  dstPkg : Nat
  dstSlice : Nat
  deriving DecidableEq, Repr

/-- A register of Olsan's window, of a VF's BAR0, or of the MSI-X table in a VF's BAR2, written whole (11 R248, R256, R260; 09 R195; 12 R288,
R292). -/
inductive RegTarget where
  | pf0 (port : Port) (offset : Nat)
  | vf (slice : Nat) (offset : Nat)
  | msix (slice : Nat) (offset : Nat)
  deriving DecidableEq, Repr

end Sys2Proof
end

