-- ==== Sys2Proof/Config.lean ====
section
/-!
DEFINITION. What the spec leaves open: free values and the functions whose values it does not give. None has a body, so no proof
can rest on a value (log 2, 7, 17).
-/
namespace Sys2Proof

/-- Arithmetic cycles that pass between two looks at a core's clock (14 R348; log 2). -/
opaque Config.elapsed : Nat → BitVec 64

/-- The nonce that a read of DBGNONCE returns next (11 R281; log 7). -/
opaque Config.nonce : Nat → BitVec 64

/-- The choice, by line address, among the UALink ports of a routing entry (11 R278; log 21). -/
opaque Config.linkPick : Nat → Nat

/-- Whether a signature over some bytes verifies (11 R280, R281; log 17). -/
opaque Config.verifies : List Byte → Bool

/-- The regions of a portable image's code, as first words and the words after their last, and whether a word of it may run on a divergent
path (12 R286 gives neither a place in the file; log 102). -/
opaque Config.regionsOf : List Byte → List (Nat × Nat)
opaque Config.divergentAt : List Byte → Nat → Bool

/-- The translator and device revisions (12 R292; log 11). -/
opaque Config.revisions : BitVec 32

/-- A sealed image or page as the bytes written outside the slice (11 R264; log 17). -/
opaque Config.sealedBytes : Nat → List Byte

/-- The greater of two FP32 values of which one is NaN or which are zeros of opposite sign, in an all-reduce max (07 R163 states no
result there; log 46). -/
opaque Config.maxCorner : Nat → Nat → Nat

/-- An element of an all-gather whose count is no multiple of the members (07 R163 states no parts there; log 46). -/
opaque Config.gathered : Nat → Nat → Nat

/-- Whether the fused hash, the protection processor and Olsan's firmware verify at a power-up (01 R15; log 6). -/
opaque Config.bootVerifies : Nat → Bool

/-- Olsan cycles that a port's link has been down, at a look at it (11 R249; log 2). -/
opaque Config.downFor : Nat → Nat

/-- The Olsan cycle count at a notice (11 R275; log 2). -/
opaque Config.olsanClock : Nat → BitVec 64

/-- The first cause of the stops that a device error raises, which 10 R220 does not give (log 53). -/
opaque Config.deviceCause : Nat → BitVec 64

/-- Whether an uncorrectable error arose in an L2 tag array, whose line is invalidated (11 R274; log 54). -/
opaque Config.inTagArray : Nat → Bool

/-- Whether a staged firmware image's signature verifies, and its security version and RAISE flag as version + 64 × raise (11 R280;
log 6). -/
opaque Config.imageSigned : Nat → Bool
opaque Config.imageHeader : Nat → Nat

/-- The set of a cache that a line belongs to, in an L1 and in an L2 (07 R149 gives no index function; log 100). -/
opaque Config.l1Set : Nat → Nat
opaque Config.l2Set : Nat → Nat

/-- A line of the code world as it lies in host memory, sealed under the code world's key, by the key's generation, the line's host address
and its contents (11 R270, 12 R288; log 17). -/
opaque Config.codeSealed : Nat → Nat → List Byte → List Byte

/-- A byte of what a spill or a forced save writes into a save area, encrypted under the slice's key (10 R244; log 18). -/
opaque Config.areaByte : Nat → Nat → BitVec 8

/-- Whether an uncorrectable error of memory is an integrity tag that fails (11 R271, R274; log 54). -/
opaque Config.tagFailed : Nat → Bool

/-- A signature over some bytes (11 R267, R276; log 17). -/
opaque Config.signs : List Byte → List Byte

/-- The measurement of a staged image's Olsan firmware, and of its ringmaster and engine firmware (11 R267, R280; log 6). -/
opaque Config.imageMeasures : Nat → Nat × Nat

/-- The image that the mask ROM finds at a power-up, as `imageHeader` gives it (01 R15; log 6). -/
opaque Config.bootHeader : Nat → Nat

/-- The place of a spilled or sealed thing that another package has sealed: its length by its first bytes (11 R264; log 70). -/
opaque Config.foreignLength : List Byte → Nat

end Sys2Proof
end

