-- ==== Sys2Proof/Machine/Numbers.lean ====
section
/-!
DEFINITION. Number formats, rounding, delivery and exact arithmetic (05_numbers). A finite value is a sign, a magnitude and a
power of two, so sums, differences and products are exact; the one rounding is in `deliver` (05 R102).
-/
namespace Sys2Proof.Machine

/-- The element formats of tensor descriptors (07 R154); VCVT's destination codes are the first eleven (04 R79). -/
inductive Fmt where
  | f32
  | bf16
  | f16
  | e4m3
  | e5m2
  | i32
  | n32
  | i8
  | n8
  | i16
  | n16
  | i4
  | i3
  | i64
  | n64
  deriving DecidableEq, Repr

/-- The format of a descriptor's FMT code (07 R154). -/
def Fmt.ofCode : Nat → Option Fmt
  | 0 => some .f32
  | 1 => some .bf16
  | 2 => some .f16
  | 3 => some .e4m3
  | 4 => some .e5m2
  | 5 => some .i32
  | 6 => some .n32
  | 7 => some .i8
  | 8 => some .n8
  | 9 => some .i16
  | 10 => some .n16
  | 11 => some .i4
  | 12 => some .i3
  | 13 => some .i64
  | 14 => some .n64
  | _ => none

/-- Bits of one element. -/
def Fmt.width : Fmt → Nat
  | .f32 => 32
  | .bf16 => 16
  | .f16 => 16
  | .e4m3 => 8
  | .e5m2 => 8
  | .i32 => 32
  | .n32 => 32
  | .i8 => 8
  | .n8 => 8
  | .i16 => 16
  | .n16 => 16
  | .i4 => 4
  | .i3 => 3
  | .i64 => 64
  | .n64 => 64

/-- The five floating-point formats (05 R92). -/
def Fmt.isFloat : Fmt → Bool
  | .f32 => true
  | .bf16 => true
  | .f16 => true
  | .e4m3 => true
  | .e5m2 => true
  | .i32 => false
  | .n32 => false
  | .i8 => false
  | .n8 => false
  | .i16 => false
  | .n16 => false
  | .i4 => false
  | .i3 => false
  | .i64 => false
  | .n64 => false

/-- Two's complement formats (05 R95). -/
def Fmt.isSigned : Fmt → Bool
  | .i32 => true
  | .i8 => true
  | .i16 => true
  | .i4 => true
  | .i3 => true
  | .i64 => true
  | .f32 => false
  | .bf16 => false
  | .f16 => false
  | .e4m3 => false
  | .e5m2 => false
  | .n32 => false
  | .n8 => false
  | .n16 => false
  | .n64 => false

/-- Significant bits of a floating-point format, the hidden bit included (05 R92); 0 for an integer format. -/
def Fmt.prec : Fmt → Nat
  | .f32 => 24
  | .bf16 => 8
  | .f16 => 11
  | .e4m3 => 4
  | .e5m2 => 3
  | _ => 0

/-- The exponent of the smallest subnormal (05 R92). -/
def Fmt.subExp : Fmt → Int
  | .f32 => -149
  | .bf16 => -133
  | .f16 => -24
  | .e4m3 => -9
  | .e5m2 => -16
  | _ => 0

/-- The magnitude bits of the largest finite value (05 R92). -/
def Fmt.maxMag : Fmt → Nat
  | .f32 => 0x7F7FFFFF
  | .bf16 => 0x7F7F
  | .f16 => 0x7BFF
  | .e4m3 => 0x7E
  | .e5m2 => 0x7B
  | _ => 0

/-- The canonical NaN (05 R92). -/
def Fmt.cnan : Fmt → Nat
  | .f32 => 0x7FC00000
  | .bf16 => 0x7FC0
  | .f16 => 0x7E00
  | .e4m3 => 0x7F
  | .e5m2 => 0x7E
  | _ => 0

/-- The smallest integer of an integer format (05 R95). -/
def Fmt.imin (f : Fmt) : Int := if f.isSigned then -(2 ^ (f.width - 1) : Nat) else 0

/-- The largest integer of an integer format (05 R95). -/
def Fmt.imax (f : Fmt) : Int := if f.isSigned then (2 ^ (f.width - 1) : Nat) - 1 else (2 ^ f.width : Nat) - 1

/-- Rounding codes (05 R100). -/
inductive Rm where
  | rne
  | rtz
  | rdn
  | rup
  | rna
  deriving DecidableEq, Repr

/-- The rounding code of an NMODE field (05 R104); the reserved codes are never stored (05 R105). -/
def Rm.ofField : Nat → Rm
  | 1 => .rtz
  | 2 => .rdn
  | 3 => .rup
  | 4 => .rna
  | _ => .rne

/-- The rounding code of a prefix's override field (05 R103); 0 keeps NMODE's. -/
def Rm.ofOverride (n : Nat) (nmode : Rm) : Rm :=
  match n with
  | 1 => .rne
  | 2 => .rtz
  | 3 => .rdn
  | 4 => .rup
  | 5 => .rna
  | _ => nmode

/-- An exact value: NaN, an infinity, or (-1)^neg × mag × 2^exp. Zero keeps its sign. -/
inductive Num where
  | nan
  | inf (neg : Bool)
  | fin (neg : Bool) (mag : Nat) (exp : Int)
  deriving DecidableEq, Repr

/-- An integer as an exact value. -/
def Num.ofInt (i : Int) : Num := .fin (decide (i < 0)) i.natAbs 0

/-- The value is NaN. -/
def Num.isNan : Num → Bool
  | .nan => true
  | .inf _ => false
  | .fin _ _ _ => false

/-- The value is an infinity. -/
def Num.isInf : Num → Bool
  | .inf _ => true
  | .nan => false
  | .fin _ _ _ => false

/-- The value is a zero of either sign. -/
def Num.isZero : Num → Bool
  | .fin _ m _ => m == 0
  | .nan => false
  | .inf _ => false

/-- The value with the opposite sign. -/
def Num.negate : Num → Num
  | .nan => .nan
  | .inf s => .inf (!s)
  | .fin s m e => .fin (!s) m e

/-- The integer that n bits hold as two's complement. -/
def signedNat (n bits : Nat) : Int := if 2 ^ (n - 1) ≤ bits then (bits : Int) - (2 ^ n : Nat) else bits

/-- The value of a floating-point encoding from its magnitude bits (05 R92, R93). -/
def floatValue (f : Fmt) (bits : Nat) : Num :=
  let signBit := 2 ^ (f.width - 1)
  let neg := decide (signBit ≤ bits)
  let mag := bits % signBit
  let frac := 2 ^ (f.prec - 1)
  if f = .e4m3 then
    if mag = 0x7F then .nan
    else if mag < frac then .fin neg mag f.subExp
    else .fin neg (frac + mag % frac) (f.subExp + (mag / frac : Nat) - 1)
  else if f.maxMag + 1 < mag then .nan
  else if mag = f.maxMag + 1 then .inf neg
  else if mag < frac then .fin neg mag f.subExp
  else .fin neg (frac + mag % frac) (f.subExp + (mag / frac : Nat) - 1)

/-- The exact value of an element's bits (05 R92, R95). -/
def valueOf (f : Fmt) (bits : Nat) : Num :=
  let b := bits % 2 ^ f.width
  if f.isFloat then floatValue f b
  else if f.isSigned then .ofInt (signedNat f.width b)
  else .ofInt b

/-- Whether a quotient k with remainder r of a positive divisor d is rounded up in magnitude (05 R100). -/
def roundsUp (rm : Rm) (neg : Bool) (k r d : Nat) : Bool :=
  match rm with
  | .rne => decide (d < 2 * r) || (2 * r == d && k % 2 == 1)
  | .rna => decide (d ≤ 2 * r) && r != 0
  | .rtz => false
  | .rup => !neg && r != 0
  | .rdn => neg && r != 0

/-- mag × 2^e rounded to a multiple of 2^q under rm: the multiple, and whether the rounding was inexact. -/
def roundAt (rm : Rm) (neg : Bool) (mag : Nat) (e q : Int) : Nat × Bool :=
  if q ≤ e then (mag * 2 ^ (e - q).toNat, false)
  else
    let d := 2 ^ (q - e).toNat
    let k := mag / d
    let r := mag % d
    (if roundsUp rm neg k r d then k + 1 else k, r != 0)

/-- mag × 2^e rounded to p significant bits with an unbounded exponent (16 R398). -/
def roundSig (rm : Rm) (neg : Bool) (p mag : Nat) (e : Int) : Nat × Int :=
  let q := e + (Nat.log2 mag : Nat) - (p : Int) + 1
  ((roundAt rm neg mag e q).1, q)

/-- A finite value rounded into a floating-point format (05 R100): magnitude bits with no upper limit, and unf. -/
def roundFloat (f : Fmt) (rm : Rm) (neg : Bool) (mag : Nat) (e : Int) : Nat × Bool :=
  if mag = 0 then (0, false)
  else
    let q := max (e + (Nat.log2 mag : Nat) - (f.prec : Int) + 1) f.subExp
    let (k, inexact) := roundAt rm neg mag e q
    let bits := (q - f.subExp).toNat * 2 ^ (f.prec - 1) + k
    (bits, inexact && decide (bits < 2 ^ (f.prec - 1)))

/-- Events of an operation, one exception class for each (05 R110). -/
abbrev Events := List Nat

/-- Sign and magnitude bits put together. -/
def withSign (f : Fmt) (neg : Bool) (mag : Nat) : Nat := if neg then 2 ^ (f.width - 1) + mag else mag

/-- An infinity delivered into a floating-point format (05 R102): E4M3 has none. -/
def deliverInf (f : Fmt) (neg sb : Bool) : Nat × Events :=
  if f = .e4m3 then
    if sb then (withSign f neg f.maxMag, [3]) else (f.cnan, [4])
  else (withSign f neg (f.maxMag + 1), [])

/-- A rounded magnitude above the largest finite (05 R100, R102): what each rounding code makes of it. -/
def deliverOverflow (f : Fmt) (rm : Rm) (neg sb : Bool) : Nat × Events :=
  if sb then (withSign f neg f.maxMag, [1, 3])
  else
    let toInf := match rm with
      | .rne => true
      | .rna => true
      | .rtz => false
      | .rup => !neg
      | .rdn => neg
    if toInf then
      let (y, ev) := deliverInf f neg false
      (y, 1 :: ev)
    else (withSign f neg f.maxMag, [1])

/-- An integer as the bits of an integer format. -/
def intBits (f : Fmt) (i : Int) : Nat := (i % (2 ^ f.width : Nat)).toNat

/-- The value written where a conversion into an integer format has none (05 R102). -/
def indefinite (f : Fmt) : Nat := if f.isSigned then intBits f f.imin else intBits f f.imax

/-- deliver(x, fmt, rm, sb) (05 R102): the bits written and the events counted. -/
def deliver (f : Fmt) (rm : Rm) (sb : Bool) (x : Num) : Nat × Events :=
  if f.isFloat then
    match x with
    | .nan => (f.cnan, [])
    | .inf neg => deliverInf f neg sb
    | .fin neg mag e =>
      let (bits, unf) := roundFloat f rm neg mag e
      if f.maxMag < bits then deliverOverflow f rm neg sb
      else (withSign f neg bits, if unf then [2] else [])
  else
    match x with
    | .nan => (if sb then 0 else indefinite f, [0])
    | .inf neg =>
      if sb then (intBits f (if neg then f.imin else f.imax), [3]) else (indefinite f, [0])
    | .fin neg mag e =>
      let k := (roundAt rm neg mag e 0).1
      let y : Int := if neg then -(k : Int) else k
      if y < f.imin then if sb then (intBits f f.imin, [3]) else (indefinite f, [0])
      else if f.imax < y then if sb then (intBits f f.imax, [3]) else (indefinite f, [0])
      else (intBits f y, [])

/-- The exact sum; opposite infinities have none. The sign of an exact zero of opposite-signed operands is + but under RDN
(05 R93). -/
def addExact (rm : Rm) : Num → Num → Option Num
  | .nan, _ => some .nan
  | .inf _, .nan => some .nan
  | .inf s, .inf t => if s = t then some (.inf s) else none
  | .inf s, .fin _ _ _ => some (.inf s)
  | .fin _ _ _, .nan => some .nan
  | .fin _ _ _, .inf t => some (.inf t)
  | .fin s m e, .fin t n g =>
    let q := min e g
    let a : Nat := m * 2 ^ (e - q).toNat
    let b : Nat := n * 2 ^ (g - q).toNat
    if s = t then some (.fin s (a + b) q)
    else if a = b then some (.fin (rm == .rdn) 0 0)
    else if b < a then some (.fin s (a - b) q)
    else some (.fin t (b - a) q)

/-- The exact product; zero times infinity has none (05 R93). -/
def mulExact : Num → Num → Option Num
  | .nan, _ => some .nan
  | .inf _, .nan => some .nan
  | .inf s, .inf t => some (.inf (s != t))
  | .inf s, .fin t n _ => if n = 0 then none else some (.inf (s != t))
  | .fin _ _ _, .nan => some .nan
  | .fin s m _, .inf t => if m = 0 then none else some (.inf (s != t))
  | .fin s m e, .fin t n g => some (.fin (s != t) (m * n) (e + g))

/-- An exact result delivered, with NaN operands giving the canonical NaN and an invalid operation counting EXC0 and EXC4
(05 R102, 15 R387). -/
def deliverOp (f : Fmt) (rm : Rm) (sb anyNan : Bool) (r : Option Num) : Nat × Events :=
  if anyNan then (f.cnan, [])
  else match r with
    | none => (f.cnan, [0, 4])
    | some x => deliver f rm sb x

/-- Addition (15 R387, 16 R407). -/
def opAdd (f : Fmt) (rm : Rm) (sb : Bool) (a b : Nat) : Nat × Events :=
  deliverOp f rm sb ((valueOf f a).isNan || (valueOf f b).isNan) (addExact rm (valueOf f a) (valueOf f b))

/-- Subtraction (15 R387): the sum with the negated second operand. -/
def opSub (f : Fmt) (rm : Rm) (sb : Bool) (a b : Nat) : Nat × Events :=
  deliverOp f rm sb ((valueOf f a).isNan || (valueOf f b).isNan) (addExact rm (valueOf f a) (valueOf f b).negate)

/-- Multiplication (15 R387, 16 R407). -/
def opMul (f : Fmt) (rm : Rm) (sb : Bool) (a b : Nat) : Nat × Events :=
  deliverOp f rm sb ((valueOf f a).isNan || (valueOf f b).isNan) (mulExact (valueOf f a) (valueOf f b))

/-- Fused multiply-add of exact values (15 R387, 16 R407): zero times infinity is invalid even beside a NaN addend, and then
counts EXC0 alone. -/
def fmaExact (f : Fmt) (rm : Rm) (sb : Bool) (x y z : Num) : Nat × Events :=
  match mulExact x y with
  | none => (f.cnan, if z.isNan then [0] else [0, 4])
  | some p => deliverOp f rm sb (x.isNan || y.isNan || z.isNan) (addExact rm p z)

/-- Fused multiply-add (15 R387, 16 R407). -/
def opFma (f : Fmt) (rm : Rm) (sb : Bool) (a b c : Nat) : Nat × Events :=
  fmaExact f rm sb (valueOf f a) (valueOf f b) (valueOf f c)

/-- The order of FP32 patterns that are not NaN, with −0 below +0 (15 R388). -/
def totalKey (bits : Nat) : Int := if 2 ^ 31 ≤ bits then -1 - ((bits % 2 ^ 31 : Nat) : Int) else bits

/-- The order of FP32 patterns that are not NaN, with −0 equal to +0 (15 R383). -/
def valueKey (bits : Nat) : Int := if 2 ^ 31 ≤ bits then -((bits % 2 ^ 31 : Nat) : Int) else bits

/-- VFMIN and VFMAX (15 R388): one of the operands, or the canonical NaN. -/
def opMinMax (max : Bool) (a b : Nat) : Nat :=
  if (valueOf .f32 a).isNan then if (valueOf .f32 b).isNan then Fmt.cnan .f32 else b
  else if (valueOf .f32 b).isNan then a
  else if max then if totalKey a < totalKey b then b else a
  else if totalKey b < totalKey a then b else a

/-- A conversion between two formats (05 R107, 15 R385). -/
def opConvert (src dst : Fmt) (rm : Rm) (sb : Bool) (bits : Nat) : Nat × Events := deliver dst rm sb (valueOf src bits)

/-- VCMP's conditions (15 R382, R383): 0 eq, 1 ne, 2 lt, 3 le, 4 gt, 5 ge, 6 unord, 7 ord, on keys that order the operands. -/
def compareKeys (cond : Nat) (nan : Bool) (a b : Int) : Bool :=
  match cond with
  | 0 => !nan && a == b
  | 1 => nan || a != b
  | 2 => !nan && decide (a < b)
  | 3 => !nan && decide (a ≤ b)
  | 4 => !nan && decide (b < a)
  | 5 => !nan && decide (b ≤ a)
  | 6 => nan
  | _ => !nan

/-- VCMP on one lane (15 R383): type 0 i32, 1 n32, 2 f32. -/
def opCompare (type cond : Nat) (a b : Nat) : Bool :=
  match type with
  | 0 => compareKeys cond false (signedNat 32 a) (signedNat 32 b)
  | 1 => compareKeys cond false a b
  | _ => compareKeys cond ((valueOf .f32 a).isNan || (valueOf .f32 b).isNan) (valueKey a) (valueKey b)

/-- The NMODE field of a destination format (05 R103, R104): its lowest bit. -/
def Fmt.nmodeField : Fmt → Nat
  | .f32 => 0
  | .bf16 => 4
  | .f16 => 8
  | .e4m3 => 12
  | .e5m2 => 16
  | .i8 => 20
  | .n8 => 20
  | .i16 => 24
  | .n16 => 24
  | .i32 => 24
  | .n32 => 24
  | .i64 => 24
  | .n64 => 24
  | .i4 => 28
  | .i3 => 28

/-- The rounding code that NMODE holds for a destination format (05 R103, R104). -/
def nmodeRm (nmode : BitVec 32) (f : Fmt) : Rm := Rm.ofField (nmode.toNat / 2 ^ f.nmodeField % 8)

/-- The saturation bit that NMODE holds for a destination format (05 R103, R104). -/
def nmodeSat (nmode : BitVec 32) (f : Fmt) : Bool := nmode.toNat / 2 ^ (f.nmodeField + 3) % 2 == 1

/-- The effective rounding code of an instruction (05 R103). -/
def effRm (nmode : BitVec 32) (p : Option APre) (f : Fmt) : Rm :=
  match p with
  | none => nmodeRm nmode f
  | some q => Rm.ofOverride q.rnd.toNat (nmodeRm nmode f)

/-- The effective saturation bit of an instruction (05 R103). -/
def effSat (nmode : BitVec 32) (p : Option APre) (f : Fmt) : Bool :=
  match p with
  | none => nmodeSat nmode f
  | some q =>
    match q.sat.toNat with
    | 1 => true
    | 2 => false
    | _ => nmodeSat nmode f

end Sys2Proof.Machine
end

