-- ==== Sys2Proof/Machine/Tables.lean ====
section
/-!
DEFINITION. Sparse tables by number, memory as a canonical list of cells, and the 64 lanes of a warp. All are plain lists, so that
equal contents written in the same way are equal data.
-/
namespace Sys2Proof.Machine

/-- A table by number, in rising order of the number. -/
abbrev Tbl (α : Type) := List (Nat × α)

/-- The entry of a number, if there is one. -/
def tfind {α : Type} : Tbl α → Nat → Option α
  | [], _ => none
  | (i, a) :: t, k => if i = k then some a else tfind t k

/-- The entry of a number, or a default. -/
def tget {α : Type} (d : α) (t : Tbl α) (k : Nat) : α := (tfind t k).getD d

/-- A number's entry set. -/
def tset {α : Type} : Tbl α → Nat → α → Tbl α
  | [], k, a => [(k, a)]
  | (i, b) :: t, k, a => if i = k then (k, a) :: t else if k < i then (k, a) :: (i, b) :: t else (i, b) :: tset t k a

/-- A number's entry taken out. -/
def tdel {α : Type} : Tbl α → Nat → Tbl α
  | [], _ => []
  | (i, b) :: t, k => if i = k then tdel t k else (i, b) :: tdel t k

/-- A number's entry changed, if there is one. -/
def tmod {α : Type} (t : Tbl α) (k : Nat) (f : α → α) : Tbl α :=
  match tfind t k with
  | none => t
  | some a => tset t k (f a)

/-- Every entry changed. -/
def tmap {α : Type} (t : Tbl α) (f : Nat → α → α) : Tbl α := t.map (fun e => (e.1, f e.1 e.2))

/-- The entries that a test keeps. -/
def tkeep {α : Type} (t : Tbl α) (p : Nat → α → Bool) : Tbl α := t.filter (fun e => p e.1 e.2)

/-- The first number from k up, within n numbers, that has no entry. -/
def tfree {α : Type} (t : Tbl α) : Nat → Nat → Option Nat
  | 0, _ => none
  | n + 1, k => if (tfind t k).isNone then some k else tfree t n (k + 1)

/-- Memory: physical addresses with the bytes that are not zero, in rising order (log 4). -/
abbrev Memory := List Host.Cell

/-- The byte at an address; an address that is not listed reads zero (01 R15; log 4). -/
def mread : Memory → Nat → Byte
  | [], _ => 0
  | (i, b) :: m, a => if i = a then b else mread m a

/-- An address taken out of the list, so that it reads zero. -/
def mclear : Memory → Nat → Memory
  | [], _ => []
  | (i, b) :: m, a => if i = a then mclear m a else (i, b) :: mclear m a

/-- A byte that is not zero listed at its place. -/
def mput : Memory → Nat → Byte → Memory
  | [], a, v => [(a, v)]
  | (i, b) :: m, a, v => if i = a then (a, v) :: m else if a < i then (a, v) :: (i, b) :: m else (i, b) :: mput m a v

/-- A byte written. -/
def mwrite (m : Memory) (a : Nat) (v : Byte) : Memory := if v = 0 then mclear m a else mput m a v

/-- The addresses of a list rise strictly from above lo, and no listed byte is zero. -/
def Memory.wfFrom (lo : Nat) : Memory → Bool
  | [] => true
  | (i, b) :: m => decide (lo ≤ i) && b != 0 && Memory.wfFrom (i + 1) m

/-- The canonical form of memory. -/
def Memory.wf (m : Memory) : Bool := Memory.wfFrom 0 m

/-- n bytes from an address up. -/
def mreadN (m : Memory) (a : Nat) : Nat → List Byte
  | 0 => []
  | n + 1 => mread m a :: mreadN m (a + 1) n

/-- Bytes written from an address up. -/
def mwriteN (m : Memory) (a : Nat) : List Byte → Memory
  | [] => m
  | b :: bs => mwriteN (mwrite m a b) (a + 1) bs

/-- The number that bytes make, least significant first (00 R2). -/
def bytesNat : List Byte → Nat
  | [] => 0
  | b :: bs => b.toNat + 256 * bytesNat bs

/-- n bytes of a number, least significant first (00 R2). -/
def natBytes : Nat → Nat → List Byte
  | 0, _ => []
  | n + 1, v => BitVec.ofNat 8 v :: natBytes n (v / 256)

/-- The lanes of a warp: always 64 words, those at and above the grant zero. -/
abbrev Lanes := List Word

/-- The 64 lanes of a function of the lane. -/
def laneList {α : Type} (f : Nat → α) : List α := (List.range 64).map f

/-- Lane L is in a set of lanes. -/
def hasLane (m : LaneMask) (l : Nat) : Bool := m.getLsbD l

/-- The set of one lane. -/
def oneLane (l : Nat) : LaneMask := BitVec.ofNat 64 (2 ^ l)

/-- The lanes 0 to n − 1. -/
def lanesBelow (n : Nat) : LaneMask := BitVec.ofNat 64 (2 ^ n - 1)

/-- The lanes of a set in ascending order. -/
def lanesOf (m : LaneMask) : List Nat := (List.range 64).filter m.getLsbD

/-- The lanes for which a test holds. -/
def maskOf (p : Nat → Bool) : LaneMask := BitVec.ofNat 64 ((List.range 64).foldl (fun n l => if p l then n + 2 ^ l else n) 0)

/-- The lowest lane of a set. -/
def lowest (m : LaneMask) : Option Nat := (List.range 64).find? m.getLsbD

/-- How many lanes a set holds. -/
def countLanes (m : LaneMask) : Nat := (lanesOf m).length

/-- A lane's word. -/
def laneGet (l : Lanes) (i : Nat) : Word := l.getD i 0

/-- Lanes of zeros. -/
def zeroLanes : Lanes := List.replicate 64 0

/-- A list with one position changed. -/
def setAt {α : Type} : List α → Nat → α → List α
  | [], _, _ => []
  | _ :: t, 0, a => a :: t
  | h :: t, i + 1, a => h :: setAt t i a

/-- Bits hi to lo of a number. -/
def bits (n hi lo : Nat) : Nat := n / 2 ^ lo % 2 ^ (hi + 1 - lo)

/-- Bit i of a number. -/
def bitOf (n i : Nat) : Bool := n / 2 ^ i % 2 == 1

end Sys2Proof.Machine
end

