-- ==== Sys2Proof/Syntax.lean ====
section
/-!
DEFINITION. The one inductive of the Sirelle 3 instructions and of the module's events: one constructor for each row of
spec/opcode_table.json. A vector instruction that accepts a prefix word carries it as `pre` (04 R74, R75: a prefix and the
word after it form one instruction); ULIT carries its literal (15 R370). The rows from PATH_YIELD on are events: what the
scheduler, the engines, the ringmaster, Olsan, the host and the physical world do in one whole step
(95_what_each_step_holds.md). They have no encoding and run as turns of the agenda (log 1). Constructors without fields stand
last: the compiler numbers at most 245 constructors that have fields.
-/
namespace Sys2Proof

/-- One constructor for each row of spec/opcode_table.json, with the rule of spec/ that governs it. -/
inductive Instr where
  /-- VADD (R375). Adds two 32-bit integer registers modulo 2^32 in each active lane. -/
  | vadd (pre : Option APre) (d : BitVec 7) (a : BitVec 7) (b : BitVec 7)
  /-- VSUB (R375). Subtracts two 32-bit integer registers modulo 2^32 in each active lane. -/
  | vsub (pre : Option APre) (d : BitVec 7) (a : BitVec 7) (b : BitVec 7)
  /-- VMUL (R400). Writes the low 32 bits of the integer product in each active lane. -/
  | vmul (pre : Option APre) (d : BitVec 7) (a : BitVec 7) (b : BitVec 7)
  /-- VMULH.i (R400). Writes the high 32 bits of the signed 64-bit product. -/
  | vmulhI (pre : Option APre) (d : BitVec 7) (a : BitVec 7) (b : BitVec 7)
  /-- VMULH.n (R400). Writes the high 32 bits of the unsigned 64-bit product. -/
  | vmulhN (pre : Option APre) (d : BitVec 7) (a : BitVec 7) (b : BitVec 7)
  /-- VMAD (R400). Writes a times b plus the fourth operand, modulo 2^32. -/
  | vmad (pre : Option APre) (d : BitVec 7) (a : BitVec 7) (b : BitVec 7)
  /-- VMIN.i (R401). Writes the smaller of two values compared as I32. -/
  | vminI (pre : Option APre) (d : BitVec 7) (a : BitVec 7) (b : BitVec 7)
  /-- VMIN.n (R401). Writes the smaller of two values compared as N32. -/
  | vminN (pre : Option APre) (d : BitVec 7) (a : BitVec 7) (b : BitVec 7)
  /-- VMAX.i (R401). Writes the larger of two values compared as I32. -/
  | vmaxI (pre : Option APre) (d : BitVec 7) (a : BitVec 7) (b : BitVec 7)
  /-- VMAX.n (R401). Writes the larger of two values compared as N32. -/
  | vmaxN (pre : Option APre) (d : BitVec 7) (a : BitVec 7) (b : BitVec 7)
  /-- VABS (R372). Writes the absolute value of a 32-bit integer. -/
  | vabs (pre : Option APre) (d : BitVec 7) (a : BitVec 7)
  /-- VCLZ (R381). Writes the count of leading zero bits. -/
  | vclz (pre : Option APre) (d : BitVec 7) (a : BitVec 7)
  /-- VPOPC (R381). Writes the count of one bits. -/
  | vpopc (pre : Option APre) (d : BitVec 7) (a : BitVec 7)
  /-- VAND (R376). Bitwise and of two registers in each active lane. -/
  | vand (pre : Option APre) (d : BitVec 7) (a : BitVec 7) (b : BitVec 7)
  /-- VOR (R376). Bitwise or of two registers in each active lane. -/
  | vor (pre : Option APre) (d : BitVec 7) (a : BitVec 7) (b : BitVec 7)
  /-- VXOR (R376). Bitwise exclusive or of two registers in each active lane. -/
  | vxor (pre : Option APre) (d : BitVec 7) (a : BitVec 7) (b : BitVec 7)
  /-- VSHL (R410). Shifts left by the register amount, giving 0 for amounts of 32 or more. -/
  | vshl (pre : Option APre) (d : BitVec 7) (a : BitVec 7) (b : BitVec 7)
  /-- VSHR (R410). Logical right shift by the register amount. -/
  | vshr (pre : Option APre) (d : BitVec 7) (a : BitVec 7) (b : BitVec 7)
  /-- VSAR (R410). Arithmetic right shift by the register amount. -/
  | vsar (pre : Option APre) (d : BitVec 7) (a : BitVec 7) (b : BitVec 7)
  /-- VBFE.i (R380). Extracts a bit field and sign-extends it. -/
  | vbfeI (pre : Option APre) (d : BitVec 7) (a : BitVec 7) (b : BitVec 7)
  /-- VBFE.n (R380). Extracts a bit field and zero-extends it. -/
  | vbfeN (pre : Option APre) (d : BitVec 7) (a : BitVec 7) (b : BitVec 7)
  /-- VBFI (R380). Inserts a bit field into the fourth operand. -/
  | vbfi (pre : Option APre) (d : BitVec 7) (a : BitVec 7) (b : BitVec 7)
  /-- VADDI (R375). Adds a sign-extended 11-bit immediate modulo 2^32. -/
  | vaddi (pre : Option APre) (d : BitVec 7) (a : BitVec 7) (i : BitVec 11)
  /-- VANDI (R376). Bitwise and with a sign-extended immediate. -/
  | vandi (pre : Option APre) (d : BitVec 7) (a : BitVec 7) (i : BitVec 11)
  /-- VORI (R376). Bitwise or with a sign-extended immediate. -/
  | vori (pre : Option APre) (d : BitVec 7) (a : BitVec 7) (i : BitVec 11)
  /-- VXORI (R376). Bitwise exclusive or with a sign-extended immediate. -/
  | vxori (pre : Option APre) (d : BitVec 7) (a : BitVec 7) (i : BitVec 11)
  /-- VSHL (R410). Shifts left by an immediate amount. -/
  | vshlImm (pre : Option APre) (d : BitVec 7) (a : BitVec 7) (n : BitVec 5)
  /-- VSHR (R410). Logical right shift by an immediate amount. -/
  | vshrImm (pre : Option APre) (d : BitVec 7) (a : BitVec 7) (n : BitVec 5)
  /-- VSAR (R410). Arithmetic right shift by an immediate amount. -/
  | vsarImm (pre : Option APre) (d : BitVec 7) (a : BitVec 7) (n : BitVec 5)
  /-- VMOVI (R403). Writes a sign-extended 18-bit immediate to each active lane. -/
  | vmovi (pre : Option APre) (d : BitVec 7) (i : BitVec 18)
  /-- VFADD (R387). FP32 addition, delivered with one rounding. -/
  | vfadd (pre : Option APre) (d : BitVec 7) (a : BitVec 7) (b : BitVec 7)
  /-- VFSUB (R387). FP32 subtraction, delivered with one rounding. -/
  | vfsub (pre : Option APre) (d : BitVec 7) (a : BitVec 7) (b : BitVec 7)
  /-- VFMUL (R387). FP32 multiplication, delivered with one rounding. -/
  | vfmul (pre : Option APre) (d : BitVec 7) (a : BitVec 7) (b : BitVec 7)
  /-- VFFMA (R387). FP32 fused multiply-add with one rounding. -/
  | vffma (pre : Option APre) (d : BitVec 7) (a : BitVec 7) (b : BitVec 7)
  /-- VFMIN (R388). Writes the smaller FP32 operand, treating NaN as missing. -/
  | vfmin (pre : Option APre) (d : BitVec 7) (a : BitVec 7) (b : BitVec 7)
  /-- VFMAX (R388). Writes the larger FP32 operand, treating NaN as missing. -/
  | vfmax (pre : Option APre) (d : BitVec 7) (a : BitVec 7) (b : BitVec 7)
  /-- VRCP (R398). Reciprocal rounded to 12 bits and then delivered in FP32. -/
  | vrcp (pre : Option APre) (d : BitVec 7) (a : BitVec 7)
  /-- VRSQ (R398). Reciprocal square root rounded to 12 bits and then delivered. -/
  | vrsq (pre : Option APre) (d : BitVec 7) (a : BitVec 7)
  /-- VSQRT (R397). Correctly rounded FP32 square root. -/
  | vsqrt (pre : Option APre) (d : BitVec 7) (a : BitVec 7)
  /-- VEXP2 (R386). Correctly rounded 2 to the power x. -/
  | vexp2 (pre : Option APre) (d : BitVec 7) (a : BitVec 7)
  /-- VLOG2 (R397). Correctly rounded base-2 logarithm. -/
  | vlog2 (pre : Option APre) (d : BitVec 7) (a : BitVec 7)
  /-- VSINP (R397). Correctly rounded sin(pi x). -/
  | vsinp (pre : Option APre) (d : BitVec 7) (a : BitVec 7)
  /-- VACT (R373). Evaluates the piecewise-linear activation table bound at dispatch. -/
  | vact (pre : Option APre) (d : BitVec 7) (a : BitVec 7)
  /-- VPKADD (R407). Adds packed narrow floating-point elements separately. -/
  | vpkadd (pre : Option APre) (d : BitVec 7) (a : BitVec 7) (b : BitVec 7) (t : BitVec 2)
  /-- VPKMUL (R407). Multiplies packed narrow floating-point elements separately. -/
  | vpkmul (pre : Option APre) (d : BitVec 7) (a : BitVec 7) (b : BitVec 7) (t : BitVec 2)
  /-- VPKFMA (R407). Fused multiply-add on each packed element with one rounding. -/
  | vpkfma (pre : Option APre) (d : BitVec 7) (a : BitVec 7) (b : BitVec 7) (t : BitVec 2)
  /-- VCVT (R385). Converts between formats, with optional slot extraction or insertion. -/
  | vcvt (pre : Option APre) (d : BitVec 7) (a : BitVec 7) (c : BitVec 3) (t : BitVec 4) (x : BitVec 1) (i : BitVec 1) (s : BitVec 2)
  /-- VCMP (R383). Sets a predicate from an integer or FP32 comparison. -/
  | vcmp (pre : Option APre) (t : BitVec 2) (p : BitVec 5) (a : BitVec 7) (b : BitVec 7) (c : BitVec 4)
  /-- VSEL (R412). Selects one of two registers by a predicate p0-p15. -/
  | vsel (pre : Option APre) (d : BitVec 7) (a : BitVec 7) (b : BitVec 7) (p : BitVec 4)
  /-- VMOV (R402). Copies a v register. -/
  | vmov (pre : Option APre) (d : BitVec 7) (a : BitVec 7)
  /-- VMOV.lo (R402). Copies the low half of an s register into each active lane. -/
  | vmovLo (pre : Option APre) (d : BitVec 7) (s : BitVec 6)
  /-- VMOV.hi (R402). Copies the high half of an s register into each active lane. -/
  | vmovHi (pre : Option APre) (d : BitVec 7) (s : BitVec 6)
  /-- VMOV.lane (R402). Writes each lane's index. -/
  | vmovLane (pre : Option APre) (d : BitVec 7)
  /-- VMOV.tid (R402). Writes each lane's linear thread index. -/
  | vmovTid (pre : Option APre) (d : BitVec 7)
  /-- PLOG (R340). Sets a predicate by a 4-bit truth table of two predicates. -/
  | plog (pre : Option APre) (d : BitVec 5) (a : BitVec 5) (b : BitVec 5) (t : BitVec 4)
  /-- ELECT (R321). Makes a predicate true in the lowest active lane only. -/
  | elect (pre : Option APre) (d : BitVec 5)
  /-- VLD (R394). Loads one value per active lane from its VM address. -/
  | vld (pre : Option MPre) (d : BitVec 7) (b : BitVec 6) (o : BitVec 7) (z : BitVec 3) (u : BitVec 2)
  /-- VST (R394). Stores one value per active lane into the store buffer at retirement. -/
  | vst (pre : Option MPre) (d : BitVec 7) (b : BitVec 6) (o : BitVec 7) (z : BitVec 3) (u : BitVec 2)
  /-- VATOM (R379). Performs one atomic read-modify-write per active lane, checked then committed. -/
  | vatom (pre : Option MPre) (d : BitVec 7) (b : BitVec 6) (o : BitVec 7) (p : BitVec 5)
  /-- GATH (R327). Issues a gather-class operation reading a word per lane into the deep file. -/
  | gath (pre : Option MPre) (d : BitVec 7) (b : BitVec 6) (o : BitVec 7) (u : BitVec 2)
  /-- DRD.blk (R319). Reads a deep-file entry, waiting while it is pending. -/
  | drdBlk (pre : Option APre) (d : BitVec 7) (a : BitVec 7) (k : BitVec 7)
  /-- DRD.trp (R319). Reads a deep-file entry, trapping if any is pending. -/
  | drdTrp (pre : Option APre) (d : BitVec 7) (a : BitVec 7) (k : BitVec 7)
  /-- DWR (R319). Writes a v register into a deep-file entry at retirement. -/
  | dwr (pre : Option APre) (d : BitVec 7) (a : BitVec 7) (k : BitVec 7)
  /-- SHFL (R344). Gives each lane another segment lane's value by idx, up, down or xor. -/
  | shfl (pre : Option APre) (d : BitVec 7) (a : BitVec 7) (b : BitVec 7) (s : BitVec 2) (m : BitVec 2)
  /-- VRED (R409). Reduces a register over each segment's active lanes by a fixed tree. -/
  | vred (pre : Option APre) (d : BitVec 7) (a : BitVec 7) (s : BitVec 2) (m : BitVec 2)
  /-- VSCAN (R411). Computes a running sum over each segment's active lanes. -/
  | vscan (pre : Option APre) (d : BitVec 7) (a : BitVec 7) (s : BitVec 2) (m : BitVec 2)
  /-- VOTE (R405). Combines a predicate across each segment by ballot, any, all or count. -/
  | vote (pre : Option APre) (d : BitVec 7) (p : BitVec 5) (s : BitVec 2) (m : BitVec 2)
  /-- BCAST (R311). Gives each lane the value held by lane l of its segment. -/
  | bcast (pre : Option APre) (d : BitVec 7) (a : BitVec 7) (l : BitVec 7) (s : BitVec 2)
  /-- MXISSUE (R334). Submits one matrix operation from a single lane's parameter block to the booth. -/
  | mxissue (pre : Option APre) (a : BitVec 7)
  /-- ACCRD (R303). Reads one accumulator element per active lane. -/
  | accrd (pre : Option APre) (d : BitVec 7) (a : BitVec 7)
  /-- ACCWR (R303). Writes one accumulator element per active lane at retirement. -/
  | accwr (pre : Option APre) (d : BitVec 7) (a : BitVec 7)
  /-- JENR (R329). Enrols the path's lanes in a rejoin register with a join PC. -/
  | jenr (j : BitVec 3) (o : BitVec 21)
  /-- JWAIT (R329). Blocks enrolled lanes until all enrolled lanes of the warp arrive. -/
  | jwait (j : BitVec 3)
  /-- BRV (R314). Branches the active lanes whose predicate is true, possibly splitting the path. -/
  | brv (p : BitVec 5) (n : BitVec 1) (o : BitVec 19)
  /-- EXIT (R322). Ends the active lanes' threads. -/
  | exit (pre : Option APre)
  /-- SPAWN (R346). Places one new thread per active lane into spawn bins. -/
  | spawn (pre : Option APre) (a : BitVec 6) (b : BitVec 6)
  /-- UADD (R361). Adds two s registers modulo 2^64. -/
  | uadd (d : BitVec 6) (a : BitVec 6) (b : BitVec 6)
  /-- USUB (R361). Subtracts two s registers modulo 2^64. -/
  | usub (d : BitVec 6) (a : BitVec 6) (b : BitVec 6)
  /-- UMUL (R361). Writes the low 64 bits of the product. -/
  | umul (d : BitVec 6) (a : BitVec 6) (b : BitVec 6)
  /-- UMULH.i (R361). Writes the high 64 bits of the signed product. -/
  | umulhI (d : BitVec 6) (a : BitVec 6) (b : BitVec 6)
  /-- UMULH.n (R361). Writes the high 64 bits of the unsigned product. -/
  | umulhN (d : BitVec 6) (a : BitVec 6) (b : BitVec 6)
  /-- UAND (R361). Bitwise and of two s registers. -/
  | uand (d : BitVec 6) (a : BitVec 6) (b : BitVec 6)
  /-- UOR (R361). Bitwise or of two s registers. -/
  | uor (d : BitVec 6) (a : BitVec 6) (b : BitVec 6)
  /-- UXOR (R361). Bitwise exclusive or of two s registers. -/
  | uxor (d : BitVec 6) (a : BitVec 6) (b : BitVec 6)
  /-- USHL (R361). Shifts left by a register amount, giving 0 at 64 or more. -/
  | ushl (d : BitVec 6) (a : BitVec 6) (b : BitVec 6)
  /-- USHR (R361). Logical right shift by a register amount. -/
  | ushr (d : BitVec 6) (a : BitVec 6) (b : BitVec 6)
  /-- USAR (R361). Arithmetic right shift by a register amount. -/
  | usar (d : BitVec 6) (a : BitVec 6) (b : BitVec 6)
  /-- UMIN.i (R361). Signed minimum of two s registers. -/
  | uminI (d : BitVec 6) (a : BitVec 6) (b : BitVec 6)
  /-- UMIN.n (R361). Unsigned minimum of two s registers. -/
  | uminN (d : BitVec 6) (a : BitVec 6) (b : BitVec 6)
  /-- UMAX.i (R361). Signed maximum of two s registers. -/
  | umaxI (d : BitVec 6) (a : BitVec 6) (b : BitVec 6)
  /-- UMAX.n (R361). Unsigned maximum of two s registers. -/
  | umaxN (d : BitVec 6) (a : BitVec 6) (b : BitVec 6)
  /-- UMOV (R361). Copies an s register. -/
  | umov (d : BitVec 6) (a : BitVec 6)
  /-- UADDI (R362). Adds a sign-extended 13-bit immediate. -/
  | uaddi (d : BitVec 6) (a : BitVec 6) (i : BitVec 13)
  /-- UANDI (R362). Bitwise and with a sign-extended immediate. -/
  | uandi (d : BitVec 6) (a : BitVec 6) (i : BitVec 13)
  /-- UORI (R362). Bitwise or with a sign-extended immediate. -/
  | uori (d : BitVec 6) (a : BitVec 6) (i : BitVec 13)
  /-- UXORI (R362). Bitwise exclusive or with a sign-extended immediate. -/
  | uxori (d : BitVec 6) (a : BitVec 6) (i : BitVec 13)
  /-- USHL (R362). Shifts an s register left by an immediate amount. -/
  | ushlImm (d : BitVec 6) (a : BitVec 6) (n : BitVec 6)
  /-- USHR (R362). Logical right shift by an immediate amount. -/
  | ushrImm (d : BitVec 6) (a : BitVec 6) (n : BitVec 6)
  /-- USAR (R362). Arithmetic right shift by an immediate amount. -/
  | usarImm (d : BitVec 6) (a : BitVec 6) (n : BitVec 6)
  /-- UMOVI (R362). Writes a sign-extended 19-bit immediate to an s register. -/
  | umovi (d : BitVec 6) (i : BitVec 19)
  /-- ULIT (R370). Writes the following literal word into one half of an s register. -/
  | ulit (d : BitVec 6) (h : BitVec 1) (lit : Word)
  /-- UFROMV (R366). Copies a v register of the lowest lane of the path into an s register. -/
  | ufromv (d : BitVec 6) (i : BitVec 7) (p : BitVec 1)
  /-- ULD (R368). Loads one value into an s register once per path. -/
  | uld (d : BitVec 6) (a : BitVec 6) (z : BitVec 3) (o : BitVec 10)
  /-- UST (R368). Stores the low bytes of an s register once per path. -/
  | ust (d : BitVec 6) (a : BitVec 6) (z : BitVec 3) (o : BitVec 10)
  /-- UATOM (R364). Performs one atomic read-modify-write at the address in an s register. -/
  | uatom (d : BitVec 6) (a : BitVec 6) (p : BitVec 5) (s : BitVec 3) (o : BitVec 2)
  /-- FENCE (R325). Orders the accesses of the path's threads at a scope. -/
  | fence (s : BitVec 3) (k : BitVec 2)
  /-- UB (R365). Branches the path when a comparison of two s registers holds. -/
  | ub (c : BitVec 3) (a : BitVec 6) (b : BitVec 6) (o : BitVec 10)
  /-- BRA (R313). Moves the path to a PC-relative target. -/
  | bra (o : BitVec 25)
  /-- CALL (R313). Writes the return address to s63 and branches. -/
  | call (o : BitVec 25)
  /-- JMPI (R330). Moves the path to the address in an s register. -/
  | jmpi (a : BitVec 6)
  /-- BARARR (R308). Each active lane arrives at a team barrier and continues. -/
  | bararr (a : BitVec 6) (b : BitVec 4)
  /-- BARWAIT (R308). Active lanes block without arriving until the phase completes. -/
  | barwait (a : BitVec 6) (b : BitVec 4)
  /-- BARSYNC (R308). Each active lane arrives and blocks until the phase completes. -/
  | barsync (a : BitVec 6) (b : BitVec 4)
  /-- SETW (R342). At the kernel entry, writes the grant to an s register. -/
  | setw (d : BitVec 6) (e : BitVec 1) (q : BitVec 2)
  /-- VSHRINK (R392). Lowers the v or deep-file allotment and zeroes the released storage. -/
  | vshrink (f : BitVec 1) (c : BitVec 5)
  /-- VGROW (R392). Raises the v or deep-file allotment, stalling for storage. -/
  | vgrow (f : BitVec 1) (c : BitVec 5)
  /-- SREAD (R350). Reads a special register into an s register. -/
  | sread (d : BitVec 6) (s : BitVec 13)
  /-- SWRITE (R350). Writes an s register into a special register, with its side effects. -/
  | swrite (a : BitVec 6) (s : BitVec 13)
  /-- TRAP (R357). Raises a software trap carrying a 13-bit code. -/
  | trap (c : BitVec 13)
  /-- TRET (R227). Returns the handler lanes to TRAPPC, or past it with skip, and clears TM. -/
  | tret (k : BitVec 1)
  /-- WAITC (R413). Stalls until a class counter is at most n, then faults on covered failures or retires. -/
  | waitc (c : BitVec 2) (n : BitVec 6)
  /-- WAITT (R415). Stalls until all or any tags of a mask are set, then snapshots them. -/
  | waitt (d : BitVec 6) (a : BitVec 6) (l : BitVec 1)
  /-- TFIRST (R352). Writes the lowest set tag of the team's range. -/
  | tfirst (d : BitVec 6)
  /-- TCLR (R352). Clears the tags named by a mask. -/
  | tclr (a : BitVec 6)
  /-- TDSET (R354). Writes one 8-byte word of a tensor descriptor. -/
  | tdset (t : BitVec 8) (w : BitVec 3) (s : BitVec 6)
  /-- TDGET (R354). Reads one 8-byte word of a tensor descriptor. -/
  | tdget (t : BitVec 8) (w : BitVec 3) (s : BitVec 6)
  /-- TDINV (R355). Clears one descriptor to zeros. -/
  | tdinv (t : BitVec 8)
  /-- TDPOOL (R356). Copies a 64-byte pool record whole into a descriptor. -/
  | tdpool (t : BitVec 8) (i : BitVec 17)
  /-- CPY (R318). Issues a copy-class operation copying and converting a tensor region. -/
  | cpy (d : BitVec 8) (s : BitVec 8) (b : BitVec 6)
  /-- WLOAD (R417). Issues a matrix-class load of a weight region into a weight-set slot. -/
  | wload (w : BitVec 4) (t : BitVec 8) (s : BitVec 6)
  /-- MXMETA (R336). Issues a copy of sparsity metadata into the metadata store. -/
  | mxmeta (t : BitVec 8) (s : BitVec 6)
  /-- ACCLD (R300). Issues a copy-class load of a tensor region into an accumulator tile. -/
  | accld (t : BitVec 8) (a : BitVec 7) (s : BitVec 6)
  /-- ACCST (R300). Issues a copy-class store of a tile region into a tensor, converting. -/
  | accst (t : BitVec 8) (a : BitVec 7) (s : BitVec 6)
  /-- ACCZ (R305). Sets every element of a range of tiles to +0.0. -/
  | accz (f : BitVec 7) (n : BitVec 7)
  /-- COLL (R317). Issues a collective-class operation on a 1-D tensor. -/
  | coll (t : BitVec 8) (b : BitVec 6)
  /-- ACTLD (R306). Issues a load of the inactive activation-table bank followed by a flip. -/
  | actld (t : BitVec 8)
  /-- OAPP (R339). Claims from an ordered-append counter in team launch order. -/
  | oapp (d : BitVec 6) (c : BitVec 6) (n : BitVec 4)
  /-- ODECL (R339). Declines the team's turn on an ordered-append counter. -/
  | odecl (n : BitVec 4)
  /-- MBXWAIT (R332). Stalls until an owned mailbox has an unpopped message. -/
  | mbxwait (m : BitVec 6)
  /-- MBXPOP (R332). Pops the oldest delivered message of an owned mailbox, or returns 0. -/
  | mbxpop (d : BitVec 6) (m : BitVec 6)
  /-- CWB (R316). Writes dirty lines of a range toward a scope's point of visibility. -/
  | cwb (d : BitVec 6) (a : BitVec 6) (s : BitVec 3)
  /-- CINV (R316). Writes back and removes the lines of a range from levels inside a scope. -/
  | cinv (d : BitVec 6) (a : BitVec 6) (s : BitVec 3)
  /-- PREF (R341). Requests the lines of a range into L1, L2 or the LLC. -/
  | pref (d : BitVec 6) (a : BitVec 6) (l : BitVec 3)
  /-- PATH_YIELD (R29). A path that has retired 4,096 instructions yields to another runnable path. -/
  | pathYield (core slot : Nat)
  /-- WARP_MOVE_IN (R62). The longest-waiting ready warp is moved into a free active slot. -/
  | warpMoveIn (core bank : Nat)
  /-- WARP_PARK (R63). An active warp whose head load misses long is parked in the slow file. -/
  | warpPark (core slot : Nat)
  /-- PARKED_LINE_ARRIVAL (R63). The missing line arrives in L1 and the parked warp becomes ready. -/
  | parkedLineArrival (core slot : Nat)
  /-- WARP_MOVE_OUT_IDLE (R64). An active warp that retired nothing for 1,024 cycles is moved out for a ready warp. -/
  | warpMoveOutIdle (core slot : Nat)
  /-- WARP_MOVE_OUT_TENURE (R64). An active warp that held its slot 65,536 cycles is moved out for a ready warp. -/
  | warpMoveOutTenure (core slot : Nat)
  /-- BANK_SWAP (R240). The ringmaster switches a core between its two bank contexts. -/
  | bankSwap (core : Nat)
  /-- BACKGROUND_SPILL (R65). The spill engine writes the outgoing bank to the slow file or memory. -/
  | backgroundSpill (core bank : Nat)
  /-- SPAWN_BIN_TIMER (R38). A spawn bin's timer expires and the bin launches its team. -/
  | spawnBinTimer (core bin : Nat)
  /-- GATHER_COMPLETE (R162). The gather unit writes each lane's word into the deep file and clears pending bits. -/
  | gatherComplete (op : Nat)
  /-- COPY_BURST (R161). A copy engine performs one 4 KiB destination burst of its operation. -/
  | copyBurst (op : Nat)
  /-- ASYNC_COMPLETION_REPORT (R164). An engine reports an operation's completion in class order, decrementing the counter. -/
  | asyncCompletionReport (op : Nat)
  /-- PERMIT_REQUEST (R140). An operation asks its die's power governor for a permit before its first pass or burst. -/
  | permitRequest (op : Nat)
  /-- PERMIT_GRANT (R436). The governor grants a queued request that fits. -/
  | permitGrant (die : Nat)
  /-- PERMIT_WAIT_LIMIT (R436). The oldest request has waited 65,536 network clocks and blocks later grants of its class. -/
  | permitWaitLimit (die : Nat)
  /-- ME_PASS_START (R138). The free booth grants the next pass to the eligible entry of highest class. -/
  | mePassStart (me : Nat)
  /-- ME_PASS_END (R135). A pass finishes its accumulator updates and the next pass index advances; residue says whether a residue
  checker saw a mismatch (R127). -/
  | mePassEnd (me : Nat) (residue : Bool)
  /-- WEIGHT_LOAD (R121). Once earlier MXISSUEs on its slot finish, the weight-load path releases the old set and writes the new one. -/
  | weightLoad (op : Nat)
  /-- ACTLD_FLIP (R216). Once no VACT uses the inactive bank, ACTLD writes it and makes it current. -/
  | actldFlip (op : Nat)
  /-- COLL_STEP (R163). The collective engine performs one exchange step between members. -/
  | collStep (op : Nat) (agree sameKey : Bool)
  /-- COLL_TIMEOUT (R163). The group timeout passes before every member joined and the operation fails. -/
  | collTimeout (op : Nat)
  /-- ENGINE_STOP (R231). An engine reaches its stopping point after the stop line and writes its stop record. -/
  | engineStop (slice ctx : Nat) (unit : EngineRef)
  /-- CORE_RESET (R239). A write to CORERST resets one core of the slice. -/
  | coreReset (slice : Nat) (value : DWord)
  /-- CORE_CONTROL_ERROR (R239). An uncorrectable error in a core's control state makes the ringmaster reset the core. -/
  | coreControlError (core : Nat)
  /-- QUIESCE (R264). SLCMD 1 quiesces a context and leads to its forced save. -/
  | quiesce (slice ctx : Nat)
  /-- QUIESCE_TRAP_DELIVERY (R242). Once the core's MXISSUEs are suspended, each warp receives the quiesce trap. -/
  | quiesceTrapDelivery (slice ctx core : Nat)
  /-- QUIESCE_COMPLETE (R243). All warps are exited or held and operations drained, so the forced save begins. -/
  | quiesceComplete (slice ctx : Nat)
  /-- QUIESCE_BUDGET_EXPIRE (R242). The quiesce budget runs out and the forced save begins. -/
  | quiesceBudgetExpire (slice ctx : Nat)
  /-- EXPORT (R264). SLCMD 2 seals a saved context under the migration key at EXPBASE. -/
  | exportCtx (slice ctx : Nat)
  /-- PAGEX (R264). SLCMD 3 exports the listed 64 KiB pages sealed. -/
  | pagex (slice ctx : Nat)
  /-- IMPORT (R264). SLCMD 4 creates a context from a sealed image. -/
  | importCtx (slice ctx : Nat)
  /-- PAGEI (R264). SLCMD 5 writes the listed sealed pages into slice memory. -/
  | pagei (slice ctx : Nat)
  /-- RESUME (R264). SLCMD 6 resumes a stopped, saved or paused context, re-slicing where grants shrink. -/
  | resume (slice ctx : Nat)
  /-- DROP (R264). SLCMD 7 scrubs a context's state and frees it. -/
  | dropCtx (slice ctx : Nat)
  /-- RESET (R264). SLCMD 8 performs a slice reset of the whole slice. -/
  | sliceReset (slice : Nat)
  /-- FLR_VF (R269). Function level reset of a VF starts a slice reset. -/
  | flrVf (slice : Nat)
  /-- FLR_PF0 (R255). FLR of PF0 resets that port's PF0 function state only. -/
  | flrPf0 (port : Port)
  /-- S2_INVALIDATION (R260). A write to S2INV starts a per-slice stage-2 invalidation. -/
  | s2Invalidation (slice : Nat)
  /-- S1_INVALIDATION (R261). A write to S1INV starts a per-context stage-1 invalidation. -/
  | s1Invalidation (slice : Nat) (value : DWord)
  /-- INVALIDATION_COMPLETE (R171). All covered TLB entries are gone and old walks ended; BUSY clears. -/
  | invalidationComplete (slice : Nat) (stage2 : Bool)
  /-- CONTEXT_CREATE (R261). Writing VALID 1 in state absent creates a context. -/
  | contextCreate (slice ctx : Nat)
  /-- CONTEXT_REMOVE (R261). Writing VALID 0 in state idle or stopped removes and scrubs a context. -/
  | contextRemove (slice ctx : Nat)
  /-- EVTAIL_WRITE (R256). Software advances the event queue tail, ignoring out-of-range values. -/
  | evtailWrite (slice : Nat) (value : DWord)
  /-- EVSTAT_WRITE (R256). W1C write of event bits; bit 9 acknowledges the shown DEFORIG record. -/
  | evstatWrite (slice : Nat) (value : DWord)
  /-- MAILBOX_ENABLE (R195). Setting ENABLE checks SIZE, LAYOUT and WEIGHT and starts the mailbox or sets ERR. -/
  | mailboxEnable (slice mbox : Nat) (value : DWord)
  /-- MAILBOX_DISABLE (R219). Clearing ENABLE stops fetching; held records run on and waiting waits complete with status 4. -/
  | mailboxDisable (slice mbox : Nat)
  /-- KICK (R197). A write to KICK starts a fetch sequence reading seals and bodies. -/
  | kick (slice mbox : Nat)
  /-- SEAL_RETRY (R197). After 1,024 ringmaster clocks a mismatched seal is read again, setting KAHEAD after 64. -/
  | sealRetry (slice mbox : Nat)
  /-- FETCH_CONTINUE (R196). When a held record completes, a paused fetch sequence continues by itself. -/
  | fetchContinue (slice mbox : Nat)
  /-- LAUNCH_RECORD (R200). A launch record starts: descriptor checks and grid placement begin. -/
  | launchRecord (slice mbox : Nat)
  /-- WAIT_RECORD (R201). A wait record starts and completes when its conditions hold. -/
  | waitRecord (slice mbox : Nat)
  /-- WAIT_CONDITION_MET (R201). A waited-for LASTDONE advances and the wait record completes. -/
  | waitConditionMet (slice mbox : Nat)
  /-- SIGNAL_RECORD (R201). A signal record writes its value as a .sy release. -/
  | signalRecord (slice mbox : Nat)
  /-- MESSAGE_RECORD (R211). A message record for an owned mailbox is delivered or completes with status 5. -/
  | messageRecord (slice mbox : Nat)
  /-- MESSAGE_DELIVERY (R211). When fewer than 8 messages wait unpopped, a held message is written into the message area. -/
  | messageDelivery (slice mbox : Nat)
  /-- RECORD_START (R206). The next record of a mailbox starts once the one before has completed. -/
  | recordStart (slice mbox : Nat)
  /-- RECORD_COMPLETE (R204). The ringmaster writes the completion record and raises the IRQ vector. -/
  | recordComplete (slice mbox : Nat)
  /-- TEAM_PLACEMENT (R207). When core resources change, the ringmaster picks a grid and places its next team. -/
  | teamPlacement (slice : Nat)
  /-- PLACEMENT_RESERVATION (R207). A team that waited 2^20 ringmaster clocks makes its grid hold a reservation. -/
  | placementReservation (slice grid : Nat)
  /-- RESIDENT_GRID_START (R210). All teams of a resident grid are placed, started together, and status 6 written. -/
  | residentGridStart (slice grid : Nat)
  /-- TEAM_EXIT (R323). Once every warp exited and operations completed, the team releases its resources. -/
  | teamExit (core team : Nat)
  /-- GRID_COMPLETE (R204). After the last team exits and stores are accepted, the launch completes. -/
  | gridComplete (slice grid : Nat)
  /-- CLUSTER_RETIRE (R214). A deterministic team cluster retires after all earlier clusters in curve order. -/
  | clusterRetire (slice grid : Nat)
  /-- DEVICE_RESET (R16). LAYCMD 4 resets every granule, clears the layout and disables VFs. -/
  | deviceReset (port : Port) (value : DWord)
  /-- PERST (R14). PERST# resets one port's link and function state. -/
  | perst (port : Port)
  /-- PORT_LINK_RETURN (R258). A port's link returns and waiting MSI-X messages are sent. -/
  | portLinkReturn (port : Port)
  /-- HOST_ACCESS_TIMEOUT (R258). A host-memory access waiting 10,000,000 Olsan cycles completes poisoned or is dropped. -/
  | hostAccessTimeout (port : Port)
  /-- SENSOR_UPDATE (R13). Olsan updates each sensor once per 1,000,000 Olsan cycles. -/
  | sensorUpdate (index : Nat) (reading : Option (BitVec 24))
  /-- POWER_WINDOW_END (R11). At the end of each 100,000,000-cycle window Olsan adjusts the governors' shares. -/
  | powerWindowEnd (meanWatts : Nat)
  /-- LAYSEM_READ (R249). A read of LAYSEM test-and-sets or takes over the layout semaphore. -/
  | laysemRead (port : Port)
  /-- LAYSEM_WRITE (R249). A write with the holder's token releases the semaphore. -/
  | laysemWrite (port : Port) (value : DWord)
  /-- PREPARE (R253). LAYCMD 1 journals and validates the staged layout. -/
  | prepare (port : Port) (value : DWord)
  /-- COMMIT (R253). LAYCMD 2 journals and applies the prepared layout. -/
  | commit (port : Port) (value : DWord)
  /-- ABORT (R253). LAYCMD 3 discards the prepared layout. -/
  | abort (port : Port) (value : DWord)
  /-- FW_VERIFY (R280). FWCMD 1 verifies a firmware image's signature and version. -/
  | fwVerify (port : Port) (value : DWord)
  /-- FW_ACTIVATE (R280). FWCMD 2 pauses contexts, ends sessions and switches firmware. -/
  | fwActivate (port : Port) (value : DWord)
  /-- DBGNONCE_READ (R281). A read of DBGNONCE returns and renews the debug nonce. -/
  | dbgnonceRead (port : Port)
  /-- DEBUG_UNLOCK (R281). DBGGO checks the token, wipes tenant keys and opens the debug port. -/
  | debugUnlock (port : Port) (value : DWord)
  /-- HEALTH_REPORT (R276). Every HPERIOD Olsan writes a signed health report to each enabled VF. -/
  | healthReport (slice : Nat)
  /-- KEY_ROTATION (R271). A tenant's rotation request increments the key generation and starts a sweep. -/
  | keyRotation (slice : Nat)
  /-- KEY_SWEEP_COMPLETE (R271). The background sweep has rewritten every line under the new keys. -/
  | keySweepComplete (slice : Nat)
  /-- MIGRATION_KEY_PROVISION (R265). The tenant's agent provisions the migration key to Olsan in its session. -/
  | migrationKeyProvision (slice : Nat) (key : MigKey)
  /-- KEY_EXCHANGE (R267). A new SPDM KEY_EXCHANGE opens a session and ends the previous one. -/
  | keyExchange (slice : Nat) (nonce : DWord)
  /-- GET_MEASUREMENTS (R267). Olsan returns the VF's signed measurement blocks. -/
  | getMeasurements (slice : Nat)
  /-- LOCK_INTERFACE_REQUEST (R268). Moves the TDI to CONFIG_LOCKED if measurements were fetched. -/
  | lockInterfaceRequest (slice : Nat)
  /-- START_INTERFACE_REQUEST (R268). Moves the TDI from CONFIG_LOCKED to RUN. -/
  | startInterfaceRequest (slice : Nat)
  /-- STOP_INTERFACE_REQUEST (R268). Moves the TDI to CONFIG_UNLOCKED. -/
  | stopInterfaceRequest (slice : Nat)
  /-- ATS_INVALIDATION (R258). An ATS invalidation completes after old-translation accesses are issued. -/
  | atsInvalidation (slice page : Nat)
  /-- XLATE_REQUEST (R292). GO hashes a portable image and finds, or translates, its cache entry. -/
  | xlateRequest (slice : Nat)
  /-- XLATE_RELEASE (R292). GO with RELEASE clears the slice's visibility bit of the entry. -/
  | xlateRelease (slice : Nat)
  /-- ROUTING_ENTRY_WRITE (R278). A write to a routing entry changes a UALink window and moves a locked TDI to ERROR. -/
  | routingEntryWrite (slice index : Nat) (value : BitVec 128)
  /-- UALINK_REQUEST (R192). A peer's read, write or atomic is checked and performed at the home L2. -/
  | ualinkRequest (slice : Nat) (kgen : BitVec 32) (req : PeerReq)
  /-- HOST_REQUEST (R192). A host agent's access through a port is performed in PCIe order. -/
  | hostRequest (port : Port) (req : HostReq)
  /-- UALINK_PORT_DOWN (R274). A UALink port that exhausts retry goes down and its requests are NAKed. -/
  | ualinkPortDown (link : Nat)
  /-- REGISTER_WRITE (R5). A write to a register with no behaviour of its own updates its writable fields. -/
  | registerWrite (target : RegTarget) (value : DWord)
  /-- ILLEGAL_INSTRUCTION (R68). A word with a reserved major, fn, mode, op or field value, or a misplaced or malformed prefix, raises an illegal-instruction trap when it reaches retirement. -/
  | illegalInstruction (sub : Nat)
  /-- PORT_LINK_DOWN (R258). A host port's link goes down, host-memory accesses and MSI-X messages begin to wait, and the semaphore takeover delay starts counting. -/
  | portLinkDown (port : Port)
  /-- STORE_BUFFER_DRAIN (R49). Retired stores leave the core's store buffer into the L1, and dirty lines are written back toward their home L2 and beyond, where the data is accepted. -/
  | storeBufferDrain (core index : Nat) (home : Bool)
  /-- MEMORY_UNCORRECTABLE_ERROR (R274). An uncorrectable error arises in a stack, an LLC, a slice's L2 ways or an owned L2 tag entry, and the line is poisoned toward its owning slice. -/
  | memoryUncorrectableError (line : Nat) (onWriteBack : Bool)
  /-- REGISTER_ECC_ERROR (R54). A word in a register storage takes an uncorrectable error and carries poison until it is overwritten or read. -/
  | registerEccError (core slot : Nat) (file : RegFile) (key : Nat)
  /-- ROUTING_KEY_INSTALL (R278). Olsan installs a key generation into a routing entry's KGEN from the tenant's SPDM session, so the entry may carry traffic. -/
  | routingKeyInstall (slice index : Nat) (kgen : BitVec 32)
  /-- SETTING_REACHES_CORE (R112). A new THRESH, WINDOW or ACTION setting written on one core takes effect on another core of the context, within 1,000,000 arithmetic cycles. -/
  | settingReachesCore (core ctx cls : Nat)
  /-- RET (R330). Jumps to the link in s63. -/
  | ret
  /-- BKPT (R312). Raises a breakpoint trap at its own address. -/
  | bkpt
  /-- NOP (R337). Retires with no effect beyond retirement counts. -/
  | nop
  /-- TDINV.all (R355). Clears every descriptor of the context's table. -/
  | tdinvAll
  /-- DEFERRED_ERROR (R51). An error found after a store retired writes its origin record and raises the stop line. -/
  | deferredError
  /-- POWER_UP (R15). After power-good the module runs its power-up order to PF0 ready. -/
  | powerUp
  /-- COLD_RESET (R16). Loss of power-good resets the whole module. -/
  | coldReset
  /-- LAYOUT_PHASE_END (R253). PREPARE or COMMIT ends, LAYSTAT is set and vector 0 of PF0 raised. -/
  | layoutPhaseEnd
  /-- OLSAN_WATCHDOG_RESET (R254). Olsan restarts and rolls the layout back or forward from its journal. -/
  | olsanWatchdogReset
  /-- DEVICE_ERROR (R274). An unattributable uncorrectable error stops every context and raises fatal AER. -/
  | deviceError
  deriving DecidableEq, Repr

end Sys2Proof
end

