-- ==== Sys2Proof/Machine/State.lean ====
section
/-!
DEFINITION. The state of the module (INVENTORY.md, State): plain data, one home for each piece of state the spec names. The model's
own fields (agenda, cur, fresh, uses, hostReply, lastRead) are marked as such.
-/
namespace Sys2Proof.Machine

/-- Why the machine stops. Neither is a behaviour of the module: they mark a run that gives the machine an instruction
with no warp to run it. -/
inductive Fault where
  /-- A warp instruction was given to exec while no warp holds the turn. Raised by every warp instruction; safe. -/
  | noWarp
  deriving DecidableEq, Repr

/-- Why a meaning is missing. -/
inductive Refusal where
  /-- The instruction has no meaning in this model yet. Raised only by arms of exec; safe. -/
  | notModelled (mnemonic : String)
  deriving DecidableEq, Repr

/-- What a turn of the machine does (log 1): a warp retires, traps or stalls; one event of the table happens; a load of a warp executes
before it retires (03 R48); the atomic at a warp's head passes its checks (15 R379); an L1, an L2 or an LLC gives up a line of a set; a
unit gives up its TLB entries; an error of a slice is detected and corrected (10 R237). -/
inductive Turn where
  | warp (core slot : Nat)
  | event (i : Instr)
  | early (core slot lane : Nat) (a : DWord) (size : Nat)
  | checkAtomic (core slot : Nat)
  | evict (core line : Nat)
  | evictL2 (slice line : Nat)
  | evictLlc (line : Nat)
  | together (core : Nat) (actives : List Nat)
  | dropTlb (unit : Nat)
  | corrected (slice : Nat)
  deriving DecidableEq, Repr

/-- What blocks a lane (02 R28): a JWAIT on rejoin register j at address pc, or barrier b. -/
inductive Block where
  | jwait (j : Nat) (pc : DWord)
  | bar (b : Nat)
  deriving DecidableEq, Repr

/-- Where a resident warp stands (03 R62, R63). seq orders waiting warps by how long they have waited; a parked warp waits for a
line. -/
inductive Loc where
  | active (slot : Nat)
  | waiting (seq : Nat)
  | parked (seq line : Nat)
  deriving DecidableEq, Repr

/-- A release mark carried by written bytes (08 R187): the scope and the writing thread. While the thread's team is saved, core is 128
more than the core it left, so that the thread stands on none. -/
structure RelMark where
  scope : Nat
  core : Nat
  slot : Nat
  gen : Nat
  lane : Nat
  slice : Nat
  ctx : Nat
  deriving DecidableEq, Repr

/-- A failed operation as its report names it (07 R167): its class, its number of issue in its warp and in the module, its error and
address, the IA of a stage-2 failure, which the host is told at the covering wait (07 R172), the lanes that a gather names (07 R162), and
for the stop record its engine, its progress and its issue position. -/
structure AsyncErr where
  cls : Nat
  seq : Nat
  age : Nat
  err : Nat
  addr : DWord
  ia : Option Nat
  lanes : Option LaneMask
  unit : EngineRef
  progress : DWord
  pos : DWord
  deriving DecidableEq, Repr

/-- What a load of a lane has read before its retirement (03 R48): the memory key, the bytes, and the release marks on them. Lane 64 stands
for a uniform load. -/
structure Bound where
  lane : Nat
  key : Nat
  bytes : List Byte
  marks : Tbl RelMark
  deriving DecidableEq, Repr

/-- A warp (02 R18, 03 R52, R53; 10 R223). Lane lists hold 64 entries. d is keyed by entry × 64 + lane, j by
register × 64 + lane with an entry exactly for an enrolled lane. wtPoison lists the poisoned words of the warp-table entry as
`tableWords` numbers them (03 R54). parkedOn is the load that the warp was last parked on (03 R63). dispatch is the core-local sequence
number of the instruction at the head, once it has been dispatched (03 R43). concerned is the failed operation that the warp's fault at a wait
surfaced (07 R167). checked: the atomic at the head has passed its checks and is not yet performed (15 R379). bound: what loads not yet
retired have read (03 R48). -/
structure Warp where
  slice : Nat := 0
  ctx : Nat := 0
  bank : Nat := 0
  team : Nat := 0
  warpix : Nat := 0
  producer : Bool := false
  grant : Nat := 16
  present : LaneMask := 0
  areg : Nat := 32
  amax : Nat := 32
  deep : Nat := 0
  dmax : Nat := 0
  v : Tbl Lanes := []
  vPoison : Tbl LaneMask := []
  d : Tbl Word := []
  dPend : List Nat := []
  dPoison : List Nat := []
  s : Tbl DWord := []
  p : Tbl LaneMask := []
  j : Tbl DWord := []
  wtPoison : List Nat := []
  pcs : List DWord := []
  exited : LaneMask := 0
  blocks : Tbl Block := []
  placed : LaneMask := 0
  path : LaneMask := 0
  pathRet : Nat := 0
  det : Bool := false
  regrant : Bool := false
  scopemis : Bool := false
  grantChanged : Bool := false
  qpend : Bool := false
  tm : Bool := false
  step : Bool := false
  nmode : Word := 0
  trapBase : DWord := 0
  trapCause : DWord := 0
  trapPc : DWord := 0
  trapLanes : DWord := 0
  trapAddr : DWord := 0
  handlers : LaneMask := 0
  inQuiesce : Bool := false
  pendThr : List Nat := []
  stepDue : Bool := false
  retired : DWord := 0
  counts : List Nat := [0, 0, 0, 0]
  issues : List Nat := [0, 0, 0, 0]
  asyncErrs : List AsyncErr := []
  loc : Loc := .waiting 0
  parkedOn : Option DWord := none
  faulted : Bool := false
  concerned : Option AsyncErr := none
  checked : Bool := false
  dispatch : Option Nat := none
  bound : List Bound := []
  held : Bool := false
  relFence : Tbl Nat := []
  seen : List (Nat × RelMark) := []
  doublePc : DWord := 0
  deriving DecidableEq, Repr

/-- A team barrier (02 R36; 13 R308): arrivals are kept per thread, for the withdrawal at an exit. -/
structure Bar where
  phase : Bool := false
  count : Nat := 0
  expected : Nat := 0
  whole : Bool := false
  arrivals : Tbl Nat := []
  deriving DecidableEq, Repr

/-- A team on a core (02 R19-R23; 09 R208). order is its place in team launch order (14 R339). Accumulator words are keyed by
tile × 16384 + row × 128 + column, with tiles counted from the team's first. -/
structure Team where
  slice : Nat := 0
  ctx : Nat := 0
  bank : Nat := 0
  grid : Nat := 0
  number : Nat := 0
  order : Nat := 0
  coord : Nat × Nat × Nat := (0, 0, 0)
  shape : Nat × Nat × Nat := (1, 1, 1)
  gridDim : Nat × Nat × Nat := (0, 0, 0)
  threads : Nat := 1
  grant : Nat := 16
  prod : Nat := 0
  entry : DWord := 0
  trapVa : DWord := 0
  quiesceVa : DWord := 0
  header : Nat := 0x30000300
  pregs : Nat := 32
  cregs : Nat := 32
  pdeep : Nat := 0
  cdeep : Nat := 0
  accB : Nat := 0
  accBase : Nat := 0
  acc : Tbl Word := []
  accPoison : List Nat := []
  tagBase : Nat := 0
  tagCount : Nat := 0
  spawned : Bool := false
  args : List DWord := []
  bars : Tbl Bar := []
  claimed : List Nat := []
  pool : DWord := 0
  deriving DecidableEq, Repr

/-- A bank context of a core (07 R166; 09 R216; 06 R130). spilled: the background spill of its last swap is done (03 R65). -/
structure Bank where
  owner : Option Nat := none
  tagRdy : DWord := 0
  tagErrs : Tbl AsyncErr := []
  act0 : Tbl Word := []
  act1 : Tbl Word := []
  actCur : Bool := false
  sparse : Memory := []
  waitSeq : Nat := 0
  spilled : Bool := true
  deriving DecidableEq, Repr

/-- The origin record of a store (03 R50). -/
structure Origin where
  ctx : Nat
  team : Nat
  slot : Nat
  gen : Nat
  pc : DWord
  slice : Nat
  deriving DecidableEq, Repr

/-- A retired store not yet at its home L2 (03 R49, 08 R178): bytes of one 128-byte line, in the store buffer or in the L1. A
release entry reaches home only after every older one; through marks a release at .sl or wider, which is written through to the port of
its line (07 R150); marks are the release marks its bytes carry, hint the cache hint of its instruction (07 R149). epoch counts the core's
release fences before it, and it reaches home after every older entry of an epoch below after (08 R182; log 117). flight marks an engine's
write, which goes past the L1. -/
structure PStore where
  line : Nat
  bytes : Tbl Byte
  marks : Tbl RelMark
  release : Bool
  through : Bool := false
  hint : Nat := 0
  inL1 : Bool
  origin : Origin
  multi : Bool
  epoch : Nat := 0
  after : Nat := 0
  flight : Bool := false
  deriving DecidableEq, Repr

/-- A clean copy of a line in an L1 (07 R148, R149): its bytes, the release marks on them, its poison with the byte places replaced since
(10 R237), the world that owns it, and its place among the lines to evict: use grows with each access, keep is the hint's. -/
structure L1Line where
  bytes : List Byte
  marks : Tbl RelMark
  poison : Option (BitVec 128)
  world : Nat
  use : Nat := 0
  keep : Bool := false
  deriving DecidableEq, Repr

/-- A line in the ways that a slice owns of a home L2 (07 R148-R151): the owning world, die and way, its place among the lines to evict,
and whether it is to be written back toward the stack. Of a line that the slice reaches through a port, which can differ from what the
port holds, clean is the copy (128 bytes, or none), dirty the bytes not yet written to the port, with their marks and their origin. The
bytes of a line of the slice's own stacks are State.mem's. -/
structure L2Line where
  world : Nat
  die : Nat
  way : Nat
  use : Nat
  keep : Bool
  written : Bool
  clean : List Byte := []
  dirty : Tbl Byte := []
  marks : Tbl RelMark := []
  origin : Option (Nat × Origin) := none
  multi : Bool := false
  deriving DecidableEq, Repr

/-- A spawned thread waiting in a bin (02 R38). -/
structure SpawnThread where
  arg0 : Word
  arg1 : Word
  deriving DecidableEq, Repr

/-- A spawn bin (02 R38): bound while it holds threads. -/
structure Bin where
  ctx : Nat
  grid : Nat
  entry : DWord
  grant : Nat
  threads : List SpawnThread
  deriving DecidableEq, Repr

/-- A core's count state and the settings it acts on, for one class of one context (05 R112). -/
structure ExcState where
  count : Nat := 0
  since : Nat := 0
  fired : Bool := false
  thr : Nat := 0
  win : Nat := 0
  act : Nat := 0
  deriving DecidableEq, Repr

/-- A core (01 R7; 03). exc is keyed by context × 8 + class. dispatches counts the instructions dispatched (03 R43). While
retirements share an arithmetic cycle (05 R115, log 104), cycle holds their contexts, and late what their SWRITEs write to exception
registers: slot, register, value. -/
structure Core where
  clk : DWord := 0
  pend : List PStore := []
  clean : Tbl L1Line := []
  bins : Tbl Bin := []
  bank0 : Bank := {}
  bank1 : Bank := {}
  running : Nat := 0
  exc : Tbl ExcState := []
  warps : Tbl Warp := []
  gens : Tbl Nat := []
  teams : Tbl Team := []
  dispatches : Nat := 0
  cycle : Option (List Nat) := none
  late : List (Nat × Nat × DWord) := []
  fences : Nat := 0
  deriving DecidableEq, Repr

/-- One member of a collective group as a COLL captured it (11 R279), at the position of its rank. -/
structure CollMember where
  pkg : Nat
  slice : Nat
  addr : DWord
  deriving DecidableEq, Repr

/-- A collective group as a COLL captured it (11 R279). -/
structure CollGroup where
  timeout : Nat
  self : Nat
  members : List CollMember
  deriving DecidableEq, Repr

/-- What an asynchronous operation does, with everything it captured at its issue (07 R157, R158). -/
inductive OpKind where
  | cpy (src dst : Desc) (p0 p1 p2 : DWord)
  | accld (td : Desc) (tile : Nat) (par : DWord)
  | accst (td : Desc) (tile : Nat) (par : DWord)
  | mxmeta (td : Desc) (par : DWord)
  | actld (td : Desc)
  | wload (ws : Nat) (td : Desc) (par : DWord) (gen : Nat)
  | mxissue (w : List Word) (a : Desc) (gather scatter : Option Desc) (gen : Nat)
  | gath (reqs : List (Nat × Nat × DWord)) (hint : Nat)
  | coll (td : Desc) (p0 p1 p2 : DWord) (group : CollGroup) (kgen : Nat)
  deriving DecidableEq, Repr

/-- A failure of an operation (10 R222): the async-op error, the faulting address, the IA of a stage-2 fault, the lanes that
a gather names (07 R162), and the key of a poisoned line with whether its integrity tag failed (11 R271). -/
structure OpErr where
  err : Nat
  addr : DWord
  ia : Option Nat := none
  lanes : Option LaneMask := none
  tag : Option (Nat × Bool) := none
  deriving DecidableEq, Repr

/-- The power permit of an operation (06 R140, R436): not asked for; queued with its number of age, whether it has waited the limit,
and its power; or granted, sole where its power alone exceeded the die's share. Powers are exact, in µW. -/
inductive Permit where
  | none
  | queued (seq : Nat) (aged : Bool) (power : Rat)
  | granted (power : Rat) (sole : Bool)
  deriving DecidableEq, Repr

/-- An asynchronous operation in flight (07 R157-R167). threads are the issuing lanes of each of its warps' slots (08 R175), mark the
release mark that its writes carry (08 R187). progress is the next pass, burst or step; started lists the accumulator rows of the column chunk
that an operation without accumulation has started at +0 (06 R132). origin names the issuing instruction, for deferred errors (03 R50).
joined: a COLL has taken its first step (07 R163). away: a bank swap that spilled the tiles has put the record into the save area (06 R145).
awaits: a restored MXISSUE whose slot's earlier WLOAD is not back yet (06 R437). dropped marks a failure that was reported after its warps had
exited, kept for its stop record (10 R235). -/
structure AsyncOp where
  cls : Nat
  slice : Nat
  ctx : Nat
  core : Nat
  bank : Nat
  team : Nat
  warps : List (Nat × Nat)
  threads : List (Nat × LaneMask) := []
  mark : Option RelMark := none
  issue : Nat
  pos : DWord
  kind : OpKind
  nmode : Word
  origin : Origin
  tag : Option Nat := none
  progress : Nat := 0
  started : List Nat := []
  joined : Bool := false
  finished : Bool := false
  err : Option OpErr := none
  events : List Nat := []
  suspended : Bool := false
  away : Bool := false
  awaits : Bool := false
  permit : Permit := .none
  accept : Nat := 0
  prio : Nat := 0
  passedOver : Nat := 0
  dropped : Bool := false
  fence : Nat := 0
  deriving DecidableEq, Repr

/-- A loaded weight set (06 R117-R121): integer weights (B8: the significands q) by column × 65536 + stored row, the residues modulo 7 of their
cells by twice that (B8: the high cell's, then the low one's), and scale bits (B8: the exponent X) by column × 4096 + group. macros is the map
of its blocks: the macro of 128 × 128 block b, row block by row block (B8: of the high cells, then the low). gen is the slot's generation when
its WLOAD was accepted. -/
structure WeightSet where
  slice : Nat
  ctx : Nat
  gen : Nat
  bank : Nat
  macros : List Nat
  scaleBytes : Nat
  fmt : Fmt
  sfmt : Nat
  group : Nat
  cols : Nat
  rows : Nat
  weights : Tbl Int
  residues : Tbl Nat := []
  scales : Tbl Int
  deriving DecidableEq, Repr

/-- A pass in progress (06 R123, R130, R135): its operation, and what the row buffer holds since its start: each output row's
accumulator row and activations, and the metadata half. -/
structure Pass where
  op : Nat
  rows : List (Nat × List Nat)
  sparse : Memory
  deriving DecidableEq, Repr

/-- A cluster's matrix engine (06 R117). -/
structure Engine where
  slots : Tbl WeightSet := []
  gens : Tbl Nat := []
  passing : Option Pass := none
  deriving DecidableEq, Repr

/-- The fields of a kernel descriptor (04 R89, R90). -/
structure Kernel where
  header : Nat
  shape : Nat × Nat × Nat
  entry : DWord
  trapVa : DWord
  quiesceVa : DWord
  prod : Nat
  pregs : Nat
  cregs : Nat
  pdeep : Nat
  cdeep : Nat
  accTiles : Nat
  tagBase : Nat
  tagCount : Nat
  cluster : Nat × Nat × Nat
  deriving DecidableEq, Repr

/-- Messages of one mailbox delivered to a resident grid and popped by it (09 R211), with the record numbers not yet popped. -/
structure MsgCount where
  delivered : Nat := 0
  popped : Nat := 0
  waiting : List Nat := []
  deriving DecidableEq, Repr

/-- An accepted, unfinished record (09 R196): its sixteen words as layout 3, its progress, and its outcome. orphan: a message still held when
the grid that owned its mailbox exited (09 R211). released: a launch whose context has stopped, and which keeps no later record waiting since
ENABLE was cleared (09 R219). -/
structure Held where
  seq : Nat
  words : List DWord
  bad : Option Nat := none
  started : Bool := false
  complete : Bool := false
  full : Bool := false
  done : Bool := false
  status : Nat := 0
  detail : Nat := 0
  grid : Option Nat := none
  delivered : Bool := false
  orphan : Bool := false
  released : Bool := false
  deriving DecidableEq, Repr

/-- A running launch (09 R200-R215). next counts teams placed in launch order; claims holds (counter, launch-order
index) pairs; record is the launch record of a grid that came with an import (11 R264). -/
structure Grid where
  ctx : Nat
  mbox : Nat
  seq : Nat
  kernel : Kernel
  dims : Nat × Nat × Nat
  pool : DWord
  args : List DWord
  resident : Bool
  resMask : DWord
  msgArea : DWord
  next : Nat := 0
  exited : List Nat := []
  lost : Nat := 0
  counters : Tbl DWord := []
  claims : List (Nat × Nat) := []
  retired : Nat := 0
  running : Bool := true
  reserved : Bool := false
  msgs : Tbl MsgCount := []
  record : Option Held := none
  deriving DecidableEq, Repr

/-- A mailbox (09 R195). fetch counts the seal reads of a fetch sequence in progress, and says whether it has accepted a
record. halted: a ringmaster write has faulted since ENABLE was set, so no further record starts (09 R205). -/
structure Mailbox where
  base : Nat := 0
  size : Nat := 0
  defctx : Nat := 0
  enable : Bool := false
  prio : Nat := 0
  weight : Nat := 0
  layout : Nat := 0
  expseq : DWord := 1
  errcode : Nat := 0
  err : Bool := false
  kahead : Bool := false
  lastdone : DWord := 0
  fetch : Option (Nat × Bool) := none
  paused : Bool := false
  halted : Bool := false
  held : List Held := []
  deriving DecidableEq, Repr

/-- The stop line of a context (10 R230-R236): its first cause, the units still to write their record, those that have stopped, the
operation whose burst or step each engine ended last since the line rose, and whether the closing status has been written. -/
structure Stop where
  cause : DWord
  units : List EngineRef
  ended : List EngineRef := []
  cut : List (EngineRef × Nat) := []
  closed : Bool
  deriving DecidableEq, Repr

/-- A quiesce in progress (10 R242): the cores whose trap has been delivered, and whether the budget has run out. -/
structure Quiesce where
  delivered : List Nat
  expired : Bool
  deriving DecidableEq, Repr

/-- A team in a saved image (10 R244), with its number and core before the save; slots holds (slot, generation, warp). -/
structure SavedTeam where
  team : Team
  index : Nat
  core : Nat
  slots : List (Nat × Nat × Warp)
  gone : List (Nat × Nat) := []
  tagRdy : DWord
  tagErrs : Tbl AsyncErr
  deriving DecidableEq, Repr

/-- A batch of spawned threads that the ringmaster holds until a core has room (02 R39, 14 R346). -/
structure SpawnBatch where
  core : Nat
  bin : Bin
  deriving DecidableEq, Repr

/-- The image of a forced save (10 R244, 06 R146), held as data (log 18). batches are spawned teams not yet placed; exc holds the counts of
each core by class, and cores the slice's cores at the save (05 R116). sets holds (matrix engine, slot, set); placed, while a resume
goes on, the slot generations that restored operations take: (old engine, slot, old generation, new engine, new generation). An export holds
its save area's sump besides, with the number of its records and of those lost (10 R244). -/
structure Image where
  teams : List SavedTeam := []
  ops : List AsyncOp := []
  sets : List (Nat × Nat × WeightSet) := []
  bins : List (Nat × Bin) := []
  batches : List SpawnBatch := []
  exc : List (Nat × Nat × ExcState) := []
  cores : List Nat := []
  sparse : List (Nat × Nat × Memory) := []
  placed : List (Nat × Nat × Nat × Nat × Nat) := []
  sump : List Byte := []
  records : Nat := 0
  lost : Nat := 0
  grids : List (Nat × Grid) := []
  table : Tbl Desc := []
  thr : List Nat := []
  win : List Nat := []
  act : List Nat := []
  spawnt : Nat := 16
  deriving DecidableEq, Repr

/-- A context (11 R261, R263; 07 R153; 05 R112). thr, win and act hold the eight settings. -/
structure Ctx where
  state : Nat := 0
  lostRec : Nat := 0
  saveBase : DWord := 0
  saveSize : DWord := 0
  s1root : Nat := 0
  td : Tbl Desc := []
  thr : List Nat := [0, 0, 0, 0, 0, 0, 0, 0]
  win : List Nat := [0, 0, 0, 0, 0, 0, 0, 0]
  act : List Nat := [0, 0, 0, 0, 0, 0, 0, 0]
  spawnt : Nat := 16
  stop : Option Stop := none
  nextSump : Nat := 0
  quiesce : Option Quiesce := none
  image : Option Image := none
  paused : Nat := 0
  deriving DecidableEq, Repr

/-- The TDISP states of a function (11 R268). -/
inductive Tdi where
  | configUnlocked
  | configLocked
  | run
  | error
  deriving DecidableEq, Repr

/-- A secured SPDM session (11 R267). -/
structure Session where
  id : Nat
  nonce : DWord
  deriving DecidableEq, Repr

/-- A violation or alarm notice (11 R275): 0 access violation, 1 integrity-tag failure, 2 environmental alarm. -/
structure Notice where
  kind : Nat
  addr : Nat
  cycles : DWord
  deriving DecidableEq, Repr

/-- A signed health report (11 R276): the fields it holds, and its signature over them and the session's nonce (log 17). -/
structure Report where
  seq : Nat
  gen : Nat
  kgen : Nat
  secVersion : Nat
  errcnt : DWord
  notices : Nat
  signature : List Byte
  deriving DecidableEq, Repr

/-- A slice: its host block, its VF registers, its mailboxes, contexts and grids (09, 11). -/
structure Slice where
  s2root : Nat := 0
  s2enable : Bool := false
  s2busy : Bool := false
  qbudget : Nat := 200000
  slcmd : DWord := 0
  slstat : Nat := 0
  s2flt : DWord := 0
  expbase : DWord := 0
  exparg : DWord := 0
  routing : Tbl (BitVec 128) := []
  evstat : BitVec 16 := 0
  evhead : DWord := 0
  evtail : DWord := 0
  events : Tbl (BitVec 128) := []
  errcnt : DWord := 0
  deforig : List (BitVec 128) := []
  s1inv : Option Nat := none
  s1sel : Nat := 0
  xlsrc : DWord := 0
  xllen : DWord := 0
  xlstat : Nat := 0
  xlreq : Option Bool := none
  xlwin : DWord := 0
  groups : Tbl (BitVec 128) := []
  members : Tbl (BitVec 128) := []
  tdi : Tdi := .configUnlocked
  measured : Bool := false
  everLocked : Bool := false
  session : Option Session := none
  notices : List Notice := []
  noticesSince : Nat := 0
  resets : Nat := 0
  scrubGen : Nat := 0
  migKey : Option MigKey := none
  kgen : Nat := 0
  sweeping : Bool := false
  reportSeq : Nat := 0
  report : Option Report := none
  mboxes : Tbl Mailbox := []
  grids : Tbl Grid := []
  nextGrid : Nat := 0
  turns : Tbl (Nat × Nat) := []
  batches : List SpawnBatch := []
  ctxs : Tbl Ctx := []
  msixTable : Tbl (BitVec 128) := []
  msixWaiting : List Nat := []
  msixSent : List Nat := []
  deriving DecidableEq, Repr

/-- One translation held by a unit's TLB (07 R171): a stage-1 leaf of a context or a stage-2 leaf of a slice. entryPa is the
stage-2 leaf's own address, for the D bit. -/
structure TlbEntry where
  unit : Nat
  slice : Nat
  ctx : Nat
  stage2 : Bool
  base : Nat
  size : Nat
  out : Nat
  w : Bool
  x : Bool
  d : Bool
  entryPa : Nat
  deriving DecidableEq, Repr

/-- A sensor (01 R13). -/
structure Sensor where
  seq : Nat := 0
  valid : Bool := false
  kind : Nat := 0
  value : BitVec 24 := 0
  deriving DecidableEq, Repr

/-- The last PREPARE or COMMIT record of Olsan's journal (11 R253, R254): a PREPARE record holds the hash of the staged bytes. -/
structure Journal where
  commit : Bool
  gen : Nat
  hash : Option Nat := none
  applied : Bool
  deriving DecidableEq, Repr

/-- A slice configuration (11 R251): way masks, port and permit shares. -/
structure SliceCfg where
  w0 : DWord := 0
  w1 : DWord := 0
  deriving DecidableEq, Repr

/-- A firmware image (11 R267, R280): its security version and RAISE flag, the measurement of Olsan's image and that of the ringmaster's and
the engines' firmware. -/
structure Firmware where
  version : Nat := 0
  raise : Bool := false
  olsan : Nat := 0
  engines : Nat := 0
  deriving DecidableEq, Repr

/-- A code-world entry (12 R290, R291): its key, its slot word's fields, and what its frame holds under its seal. -/
structure XEntry where
  slot : Nat
  key : Nat
  visible : BitVec 16
  age : Nat
  frame : Nat
  code : List Byte
  deriving DecidableEq, Repr

/-- A sealed context image or page outside the slice (11 R264, R265): the key it is sealed under, its source, and its
contents. -/
structure Sealed where
  key : MigKey
  pkg : Nat
  slice : Nat
  ctx : Nat
  ia : Nat
  image : Option Image
  page : List Host.Cell
  deriving DecidableEq, Repr

/-- A warning latched on a function (11 R257): true for a fatal error. -/
structure Aer where
  port : Option Port
  slice : Option Nat
  fatal : Bool
  deriving DecidableEq, Repr

/-- A deferred error found and not yet recorded (03 R50, R51): the origin record and the subtype. -/
structure Deferred where
  record : BitVec 128
  slice : Nat
  ctx : Nat
  sub : Nat
  deriving DecidableEq, Repr

/-- The state of the module. mem is what the home of every line holds, with what lies behind the ports; l2 is keyed by line + slice, llc by
line with whether the line is to be written to the stack. badTags are the poisoned lines whose integrity tag failed (11 R271). hostKgen and
codeKgen are the key generations of worlds 16 and 17 (11 R270), pfSessions the sessions of the two PF0s (11 R267), and resetPending a device
reset that waits for a commit's outcome (01 R17). The last six fields are the model's own (log 1, log 2, log 100). -/
structure State where
  corecap : BitVec 128 := 0
  mem : Memory := []
  poison : Tbl (BitVec 128) := []
  badTags : List Nat := []
  wbErr : List Nat := []
  marks : Tbl RelMark := []
  l2 : Tbl L2Line := []
  llc : Tbl Bool := []
  cores : Tbl Core := []
  slices : Tbl Slice := []
  engines : Tbl Engine := []
  ops : Tbl AsyncOp := []
  deferred : List Deferred := []
  nextOp : Nat := 0
  tlb : List TlbEntry := []
  sensors : Tbl Sensor := []
  shares : List Rat := [1450000000, 1450000000]
  nextPermit : Nat := 0
  laysemHeld : Bool := false
  laysemPort : Port := .a
  laysemToken : Nat := 0
  tokenCtr : Nat := 0
  semtake : Nat := 1000000000
  layGen : Nat := 0
  layResult : Nat := 0
  layBad : Nat := 0
  layPhase : Nat := 0
  stagedMap : List Nat := List.replicate 16 0x1F
  stagedCfg : Tbl SliceCfg := []
  granMap : List Nat := List.replicate 16 0x1F
  sliceCfg : Tbl SliceCfg := []
  journal : Option Journal := none
  resetPending : Bool := false
  pkgid : Nat := 0
  hostKgen : Nat := 0
  codeKgen : Nat := 0
  pfSessions : List (Option Session) := [none, none]
  hperiod : Nat := 1000000000
  xcbase : Nat := 0
  xcport : Port := .a
  xcsize : Nat := 0
  xentries : List XEntry := []
  fwaddr : DWord := 0
  fwstat : Nat := 0
  fwStaged : Firmware := {}
  fwActive : Firmware := {}
  fwMin : Nat := 0
  dbgnonce : DWord := 0
  dbgtoken : DWord := 0
  dbglen : Nat := 0
  dbgstat : Nat := 0
  dbgfail : Nat := 0
  debugLife : Bool := false
  deviceErr : Bool := false
  powerLatch : Bool := false
  linkUp : List Bool := [true, true]
  linkLong : List Bool := [false, false]
  hostTimeout : List Bool := [false, false]
  ualUp : BitVec 8 := 0xFF
  sealedData : Tbl Sealed := []
  aer : List Aer := []
  msix0 : List Port := []
  msix0Waiting : List Port := []
  agenda : List Turn := []
  cur : Nat × Nat := (0, 0)
  fresh : Nat := 0
  uses : Nat := 0
  hostReply : List Byte := []
  lastRead : DWord := 0
  deriving DecidableEq, Repr

/-- The module after step 6 of its start (01 R15): SRAM zero, every granule unassigned, every VF disabled, the semaphore
free. -/
def State.reset : State := {}

end Sys2Proof.Machine
end

