-- ==== Sys2Proof/Machine/Access.lean ====
section
/-!
DEFINITION. Where things are: cores, slices, contexts and warps of the state, the module's layout of them (01 R7), and the events a
VF reports (11 R256-R258).
-/
namespace Sys2Proof.Machine

/-- A core. -/
def getCore (s : State) (n : Nat) : Core := tget {} s.cores n

/-- A core replaced. -/
def putCore (s : State) (n : Nat) (c : Core) : State := { s with cores := tset s.cores n c }

/-- A slice. -/
def getSlice (s : State) (n : Nat) : Slice := tget {} s.slices n

/-- A slice replaced. -/
def putSlice (s : State) (n : Nat) (x : Slice) : State := { s with slices := tset s.slices n x }

/-- A context of a slice. -/
def getCtx (s : State) (sl c : Nat) : Ctx := tget {} (getSlice s sl).ctxs c

/-- A context of a slice replaced. -/
def putCtx (s : State) (sl c : Nat) (x : Ctx) : State :=
  putSlice s sl { getSlice s sl with ctxs := tset (getSlice s sl).ctxs c x }

/-- A warp, if its slot holds one. -/
def getWarp (s : State) (core slot : Nat) : Option Warp := tfind (getCore s core).warps slot

/-- A warp replaced. -/
def putWarp (s : State) (core slot : Nat) (w : Warp) : State :=
  putCore s core { getCore s core with warps := tset (getCore s core).warps slot w }

/-- The generation of a warp slot (03 R53). -/
def slotGen (s : State) (core slot : Nat) : Nat := tget 0 (getCore s core).gens slot

/-- A team of a core. -/
def getTeam (s : State) (core team : Nat) : Team := tget {} (getCore s core).teams team

/-- A team of a core replaced. -/
def putTeam (s : State) (core team : Nat) (t : Team) : State :=
  putCore s core { getCore s core with teams := tset (getCore s core).teams team t }

/-- A bank context of a core. -/
def Core.bank (c : Core) (b : Nat) : Bank := if b = 0 then c.bank0 else c.bank1

/-- A bank context of a core replaced. -/
def Core.putBank (c : Core) (b : Nat) (x : Bank) : Core := if b = 0 then { c with bank0 := x } else { c with bank1 := x }

/-- The cluster of a core (01 R7). -/
def clusterOf (core : Nat) : Nat := core / 4

/-- The granule of a core (01 R7). -/
def granuleOf (core : Nat) : Nat := core / 8

/-- The die of a core (01 R7). -/
def dieOf (core : Nat) : Nat := core / 64

/-- The slice that holds a granule, if one does (11 R251). -/
def sliceOfGranule (s : State) (g : Nat) : Option Nat :=
  let v := s.granMap.getD g 0x1F
  if v < 16 then some v else none

/-- The slice that a core serves. -/
def sliceOfCore (s : State) (core : Nat) : Option Nat := sliceOfGranule s (granuleOf core)

/-- The granules of a slice in ascending order. -/
def granulesOf (s : State) (sl : Nat) : List Nat := (List.range 16).filter (fun g => sliceOfGranule s g == some sl)

/-- The cores of a slice in ascending order. -/
def coresOf (s : State) (sl : Nat) : List Nat := (List.range 128).filter (fun c => sliceOfCore s c == some sl)

/-- Lanes of a core: a harvested core has 32 (01 R8). -/
def coreLanes (s : State) (core : Nat) : Nat := if s.corecap.getLsbD core then 32 else 64

/-- The host port on which a slice's VF is enabled (11 R251). -/
def slicePort (s : State) (sl : Nat) : Port := if (tget {} s.sliceCfg sl).w1.getLsbD 16 then .b else .a

/-- The number of a port. -/
def portIx : Port → Nat
  | .a => 0
  | .b => 1

/-- A port's link is up (11 R258). -/
def portUp (s : State) (p : Port) : Bool := s.linkUp.getD (portIx p) true

/-- The accesses of a port have waited past the limit of 11 R258. -/
def portTimedOut (s : State) (p : Port) : Bool := s.hostTimeout.getD (portIx p) false

/-- The module takes commands (11 R274; 01 R12, R15): after a device error it accepts only a device reset, and without power none. -/
def accepts (s : State) : Bool := !s.deviceErr && !s.powerLatch

/-- A slice's VF is enabled (11 R255): the slice holds a granule. -/
def vfEnabled (s : State) (sl : Nat) : Bool := !(granulesOf s sl).isEmpty

/-- The device starts work for a slice's VF (11 R268): its TDI is in RUN, or it has never been locked since its last slice reset. -/
def mayWork (s : State) (sl : Nat) : Bool :=
  accepts s && vfEnabled s sl && ((getSlice s sl).tdi == .run || !(getSlice s sl).everLocked)

/-- An entry of a VF's MSI-X table (11 R256) as PCIe lays it out: address, data, and the mask bit 96, which is set at reset (log 108). -/
def msixEntry (x : Slice) (v : Nat) : BitVec 128 := tget 0x1000000000000000000000000 x.msixTable v

/-- A vector of a slice's VF can be sent (11 R256, R258): its port's link is up, and its table entry does not mask it (log 108). -/
def vectorOpen (s : State) (sl v : Nat) : Bool := portUp s (slicePort s sl) && !(msixEntry (getSlice s sl) v).getLsbD 96

/-- An MSI-X vector raised on a slice's VF (11 R256, R258): while it cannot be sent it waits, once, in the PBA. -/
def raiseVector (s : State) (sl v : Nat) : State :=
  let x := getSlice s sl
  if vectorOpen s sl v then putSlice s sl { x with msixSent := x.msixSent ++ [v] }
  else if x.msixWaiting.contains v then s
  else putSlice s sl { x with msixWaiting := x.msixWaiting ++ [v] }

/-- The waiting MSI-X messages of a slice that can be sent are (11 R258). -/
def sendWaiting (s : State) (sl : Nat) : State :=
  let x := getSlice s sl
  let go := x.msixWaiting.filter (vectorOpen s sl)
  if go.isEmpty then s
  else putSlice s sl { x with msixSent := x.msixSent ++ go, msixWaiting := x.msixWaiting.filter (fun v => !vectorOpen s sl v) }

/-- The fields of an event-queue entry (11 R256): bit, context, core, class, mailbox or teams lost, and the upper word. -/
def eventEntry (bit ctx core cls low : Nat) (high : DWord) : BitVec 128 :=
  high ++ BitVec.ofNat 64 (bit % 256 + ctx % 2 ^ 16 * 2 ^ 8 + core % 128 * 2 ^ 24 + cls % 8 * 2 ^ 32 + low % 256 * 2 ^ 40)

/-- An event of a VF (11 R256): its entry is queued, its EVSTAT bit set and its vector raised; a full queue takes no entry and
sets the overflow bit. -/
def raiseEvent (s : State) (sl bit ctx core cls low : Nat) (high : DWord) : State :=
  let x := getSlice s sl
  let stat := x.evstat ||| BitVec.ofNat 16 (2 ^ bit)
  let x' := if x.evhead - x.evtail = 64 then { x with evstat := stat ||| 0x8000 }
    else { x with evstat := stat, evhead := x.evhead + 1,
                  events := tset x.events (x.evhead.toNat % 64) (eventEntry bit ctx core cls low high) }
  raiseVector (putSlice s sl x') sl (63 - bit)

/-- An error that was detected and corrected added to a slice's error log, stopping at its maximum (10 R237, 11 R256). -/
def countCorrected (s : State) (sl : Nat) : State :=
  let x := getSlice s sl
  let lo := x.errcnt.toNat % 2 ^ 32
  putSlice s sl { x with errcnt := BitVec.ofNat 64 (min (lo + 1) (2 ^ 32 - 1) + x.errcnt.toNat / 2 ^ 32 * 2 ^ 32) }

/-- A count of detected errors added to a slice's error log, stopping at its maximum (11 R256). -/
def countDetected (s : State) (sl : Nat) : State :=
  let x := getSlice s sl
  let hi := x.errcnt.toNat / 2 ^ 32
  putSlice s sl { x with errcnt := BitVec.ofNat 64 (x.errcnt.toNat % 2 ^ 32 + min (hi + 1) (2 ^ 32 - 1) * 2 ^ 32) }

/-- A containment event of a slice reported on its VF (11 R257, R274): an uncorrectable internal error, not fatal. -/
def noteContained (s : State) (sl : Nat) : State :=
  { s with aer := s.aer ++ [{ port := some (slicePort s sl), slice := some sl, fatal := false }] }

/-- A notice queued for a slice's tenant (11 R275). The event's entry names no place for the notice's kind (11 R256): it stands in [47:40]
(log 129). -/
def raiseNotice (s : State) (sl : Nat) (n : Notice) : State :=
  let x := getSlice s sl
  raiseEvent (putSlice s sl { x with notices := x.notices ++ [n], noticesSince := x.noticesSince + 1 }) sl 7 0 0 0 n.kind 0

end Sys2Proof.Machine
end

