-- ==== Sys2Proof/Machine/Paths.lean ====
section
/-!
DEFINITION. Paths and rejoining (02 R28-R32): which lanes can run, which path runs next, and what releases waiting lanes.
-/
namespace Sys2Proof.Machine

/-- A lane's PC. -/
def pcOf (w : Warp) (l : Nat) : DWord := w.pcs.getD l 0

/-- The lanes of the warp that exist and have not exited. -/
def liveLanes (w : Warp) : LaneMask := w.present &&& ~~~w.exited

/-- The runnable lanes (02 R28). -/
def runnable (w : Warp) : LaneMask := maskOf (fun l => (liveLanes w).getLsbD l && (tfind w.blocks l).isNone)

/-- The lanes among which the next path is chosen: under TM, those that entered the handler (10 R225). -/
def selectable (w : Warp) : LaneMask := if w.tm then runnable w &&& w.handlers else runnable w

/-- The path of a selected PC: every selectable lane there (02 R28). -/
def selectPc (w : Warp) (pc : DWord) : Warp :=
  { w with path := maskOf (fun l => (selectable w).getLsbD l && pcOf w l == pc), pathRet := 0 }

/-- The path of the lowest selectable lane (02 R29); none when no lane can run. -/
def selectLowest (w : Warp) : Warp :=
  match lowest (selectable w) with
  | none => { w with path := 0, pathRet := 0 }
  | some l => selectPc w (pcOf w l)

/-- A warp with no running path takes one if it can. -/
def ensurePath (w : Warp) : Warp := if w.path = 0 then selectLowest w else w

/-- The running path's PC (02 R28). -/
def pathPc (w : Warp) : DWord :=
  match lowest w.path with
  | none => 0
  | some l => pcOf w l

/-- Some lanes' PCs set. -/
def setPcs (w : Warp) (m : LaneMask) (pc : DWord) : Warp :=
  { w with pcs := laneList (fun l => if m.getLsbD l then pc else pcOf w l) }

/-- The low word of a lane's PC; the high word is the next (03 R53, R54). -/
def pcWord (l : Nat) : Nat := 2048 + l * 2

/-- PC words of some lanes that are written whatever they held carry no poison (03 R54). -/
def cleanPcs (w : Warp) (m : LaneMask) : Warp :=
  { w with wtPoison := w.wtPoison.filter (fun k => !(List.range 64).any (fun l => m.getLsbD l && (k == pcWord l || k == pcWord l + 1))) }

/-- The unretired instructions of a warp discarded (03 R43, R62; 10 R231, R240): the instruction at its head is dispatched and checked anew,
and a load reads anew. A fault that the warp has taken keeps its number. -/
def discard (w : Warp) : Warp := if w.faulted then w else { w with dispatch := none, checked := false, bound := [] }

/-- The retirement of an ordering point (03 R48): loads that have executed read anew. -/
def orderLoads (w : Warp) : Warp := { w with bound := [] }

/-- The running path moves on by the instruction's length. -/
def advance (len : Nat) (w : Warp) : Warp := setPcs w w.path (pathPc w + BitVec.ofNat 64 len)

/-- The lowest lane of a waiting path: no lower selectable lane outside the running path has its PC. -/
def headsPath (w : Warp) (l : Nat) : Bool :=
  (selectable w).getLsbD l && !w.path.getLsbD l &&
    (List.range l).all (fun k => !((selectable w).getLsbD k && !w.path.getLsbD k && pcOf w k == pcOf w l))

/-- The path that a yield passes to (02 R29): the one whose lowest lane is the next above the yielding path's, wrapping to the
lowest selectable lane; none when no other path can run. -/
def yieldTarget (w : Warp) : Option Nat :=
  let low := (lowest w.path).getD 0
  match (List.range 64).find? (fun l => decide (low < l) && headsPath w l) with
  | some l => some l
  | none => (List.range 64).find? (headsPath w)

/-- A path has retired 4,096 instructions since it was selected and another can run (02 R29). An instruction that has been dispatched and
stalls switches no path: where another path becomes runnable meanwhile, the yield follows its retirement (log 95). -/
def yieldDue (w : Warp) : Bool := decide (4096 ≤ w.pathRet) && w.dispatch.isNone && w.path != 0 && (yieldTarget w).isSome

/-- The lanes enrolled in rejoin register j with a join PC (02 R31). -/
def enrolled (w : Warp) (j : Nat) (pc : DWord) : LaneMask := maskOf (fun l => tfind w.j (j * 64 + l) == some pc)

/-- Lane l waits at a JWAIT of j at pc. -/
def waitsAt (w : Warp) (j : Nat) (pc : DWord) (l : Nat) : Bool := tfind w.blocks l == some (.jwait j pc)

/-- Every enrolled lane has arrived or exited, and one waits (14 R329). -/
def releases (w : Warp) (j : Nat) (pc : DWord) : Bool :=
  (List.range 64).all (fun l => !(enrolled w j pc).getLsbD l || waitsAt w j pc l || w.exited.getLsbD l || !w.present.getLsbD l) &&
    (List.range 64).any (fun l => waitsAt w j pc l)

/-- The waiters of a complete rejoin leave it (14 R329): enrolment cleared, past the JWAIT, and selected next as one path. -/
def releaseJoin (w : Warp) (j : Nat) (pc : DWord) : Warp :=
  let e := maskOf (fun l => (enrolled w j pc).getLsbD l && !w.exited.getLsbD l && waitsAt w j pc l)
  let next := pc + 4
  let w1 := { w with j := tkeep w.j (fun k _ => !(k / 64 == j && e.getLsbD (k % 64))),
                     blocks := tkeep w.blocks (fun l _ => !e.getLsbD l) }
  let w2 := cleanPcs (setPcs w1 e next) e
  if (selectable w2 &&& e) = 0 then w2 else selectPc w2 next

/-- The (register, join PC) pairs at which lanes wait. -/
def waitedJoins (w : Warp) : List (Nat × DWord) :=
  (w.blocks.filterMap (fun e => match e.2 with
    | .jwait j pc => some (j, pc)
    | .bar _ => none)).eraseDups

/-- The release check of every waited rejoin (14 R329), run when a lane arrives, exits or re-enrols. Where one event completes two, the
path of the last in the order of the lanes' blocks is selected next, which 02 R31 leaves open (log 96). -/
def releaseJoins (w : Warp) : Warp :=
  (waitedJoins w).foldl (fun w e => if releases w e.1 e.2 then releaseJoin w e.1 e.2 else w) w

/-- The running path after an instruction (02 R28, R29): its lanes that can still run go on; where their PCs differ the part with
the lowest lane is selected; where none is left the path of the lowest selectable lane is. -/
def settle (w : Warp) : Warp :=
  let rem := w.path &&& selectable w
  match lowest rem with
  | none => selectLowest w
  | some l =>
    if (List.range 64).all (fun k => !rem.getLsbD k || pcOf w k == pcOf w l) then { w with path := rem }
    else selectPc w (pcOf w l)

/-- The WSW register (10 R223). -/
def wswOf (w : Warp) : DWord :=
  BitVec.ofNat 64 ((lowest w.path).getD 0 * 2 ^ 8 + w.det.toNat * 2 ^ 6 + w.regrant.toNat * 2 ^ 5 + w.scopemis.toNat * 2 ^ 4 +
    w.grantChanged.toNat * 2 ^ 3 + w.qpend.toNat * 2 ^ 2 + w.tm.toNat * 2 + w.step.toNat)

/-- The OCNT register (07 R165). -/
def ocntOf (w : Warp) : DWord :=
  BitVec.ofNat 64 (w.counts.getD 0 0 + w.counts.getD 1 0 * 2 ^ 8 + w.counts.getD 2 0 * 2 ^ 16 + w.counts.getD 3 0 * 2 ^ 24)

end Sys2Proof.Machine
end

