-- ==== Sys2Proof/Machine/Homes.lean ====
section
/-!
DEFINITION. The home of every line (07 R148-R152, R168; 10 R237; 11 R258, R278; 12 R288-R291): memory keys and how a slice's access to one
is answered, poison, the bytes that lie behind a port, and the lines that a home L2 and an LLC hold. Keys are physical addresses below 2^52;
host memory through port B lies 2^52 higher, host addresses from 2^51 up from 2^74 on, and other packages from 2^72 on; the code world's lines,
as its window shows them, lie 2^80 above the host memory that holds them sealed (log 4, log 101).
-/
namespace Sys2Proof.Machine

/-- The first address of the 128-byte line that holds an address. -/
def lineOf (a : Nat) : Nat := a / 128 * 128

/-- A key of HBM (07 R168). -/
def isHbm (k : Nat) : Bool := decide (k < 2 ^ 40)

/-- A physical address of a UALink window (07 R168). -/
def isLink (k : Nat) : Bool := decide (2 ^ 50 ≤ k ∧ k < 2 ^ 51)

/-- A key of another package's memory (07 R168, log 101). -/
def isPkg (k : Nat) : Bool := decide (2 ^ 72 ≤ k ∧ k < 2 ^ 74)

/-- A key of host memory, through either port (07 R168). -/
def isHost (k : Nat) : Bool := decide (2 ^ 51 ≤ k ∧ k < 2 ^ 53) || decide (2 ^ 74 ≤ k)

/-- The key of the memory that holds a key's bytes: the code world's lines lie sealed in host memory (12 R288). -/
def placeOf (k : Nat) : Nat := k % 2 ^ 80

/-- The port that a key of host memory is reached through. -/
def hostPort (k : Nat) : Port :=
  let p := placeOf k
  if p < 2 ^ 52 then .a else if p < 2 ^ 53 then .b else if p < 2 ^ 74 + 2 ^ 65 then .a else .b

/-- The key of a physical address that a slice uses: host memory lies behind the port of its VF (11 R258). -/
def memKey (p : Port) (pa : Nat) : Nat :=
  match p with
  | .a => pa
  | .b => if 2 ^ 51 ≤ pa then pa + 2 ^ 52 else pa

/-- The key of a host address through a port (11 R258): a physical address names only those below 2^51. -/
def hostAddrKey (p : Port) (h : Nat) : Nat := if h < 2 ^ 51 then memKey p (2 ^ 51 + h) else 2 ^ 74 + portIx p * 2 ^ 65 + h

/-- The host address of a key of host memory. -/
def hostAddr (k : Nat) : Nat :=
  let p := placeOf k
  if p < 2 ^ 52 then p - 2 ^ 51 else if p < 2 ^ 53 then p - (2 ^ 51 + 2 ^ 52) else (p - 2 ^ 74) % 2 ^ 65

/-- The window of a routing entry (11 R278): first address and size. -/
def routeWindow (e : BitVec 128) : Nat × Nat := (bits e.toNat 51 16 * 2 ^ 16, 2 ^ bits e.toNat 57 52)

/-- A routing entry's window lies in the UALink range, aligned to its size (11 R278). -/
def routeInRange (e : BitVec 128) : Bool :=
  let (b, n) := routeWindow e
  decide (16 ≤ bits e.toNat 57 52 ∧ bits e.toNat 57 52 ≤ 50 ∧ b % n = 0 ∧ 2 ^ 50 ≤ b ∧ b + n ≤ 2 ^ 51)

/-- A routing entry carries traffic (11 R278): valid, in range, with a key, and overlapping no other valid entry. -/
def routeCarries (x : Slice) (i : Nat) (e : BitVec 128) : Bool :=
  let (b, n) := routeWindow e
  e.getLsbD 0 && routeInRange e && bits e.toNat 91 60 != 0 &&
    x.routing.all (fun f => f.1 == i || !f.2.getLsbD 0 ||
      decide ((routeWindow f.2).1 + (routeWindow f.2).2 ≤ b ∨ b + n ≤ (routeWindow f.2).1))

/-- The carrying entry of a slice that covers an address (11 R278). -/
def routeOf (x : Slice) (pa : Nat) : Option (BitVec 128) :=
  (x.routing.find? (fun f => routeCarries x f.1 f.2 &&
    decide ((routeWindow f.2).1 ≤ pa ∧ pa < (routeWindow f.2).1 + (routeWindow f.2).2))).map (fun f => f.2)

/-- The package and slice that a routing entry names, as one number (11 R278). -/
def routeTarget (e : BitVec 128) : Nat := bits e.toNat 119 100

/-- The key of an address of a carrying entry's window (log 101): the package, the slice, and the place in the window. -/
def pkgKey (e : BitVec 128) (pa : Nat) : Nat := 2 ^ 72 + routeTarget e * 2 ^ 50 + (pa - (routeWindow e).1) % 2 ^ 50

/-- The UALink port that an entry's accesses to a line use (11 R278): one of PORTS, chosen by the line address (log 21). -/
def linkPort (e : BitVec 128) (line : Nat) : Nat :=
  let ps := (List.range 8).filter (fun n => bitOf (bits e.toNat 127 120) n)
  ps.getD (Config.linkPick line % ps.length) 0

/-- A slice's stacks hold a line (07 R168). -/
def ownStack (s : State) (sl k : Nat) : Bool := isHbm k && sliceOfGranule s (k / 2 ^ 36) == some sl

/-- The carrying entry through which a slice reaches a key of another package, or of another slice of its own (11 R278, R279). -/
def windowEntry (s : State) (sl k : Nat) : Option (BitVec 128) :=
  let x := getSlice s sl
  let target := if isPkg k then some ((k - 2 ^ 72) / 2 ^ 50)
    else if isHbm k then (sliceOfGranule s (k / 2 ^ 36)).map (fun r => s.pkgid * 16 + r)
    else none
  (x.routing.find? (fun f => routeCarries x f.1 f.2 && target == some (routeTarget f.2) &&
    (!isPkg k || decide ((k - 2 ^ 72) % 2 ^ 50 < (routeWindow f.2).2)))).map (fun f => f.2)

/-- A slice of this package refuses an access through a window that names it (11 R278; log 101). -/
def linkRefused (s : State) (k : Nat) : Bool := isPkg k && (k - 2 ^ 72) / 2 ^ 54 == s.pkgid

/-- Whether an access to a line is answered now (03 R50, 11 R258): at once; not while a port's link is down; or refused, by a
remote package or after the limit. -/
inductive Reach where
  | ok
  | waits
  | refused
  deriving DecidableEq, Repr

/-- How a slice's access to a line is answered: a window that names this package's own slice leads to its stack, and a key of this package
that names no stack is one that the receiving slice refuses (11 R278, R279; log 101). -/
def reach (s : State) (sl k : Nat) : Reach :=
  if isHost k then
    if portUp s (hostPort k) then .ok
    else if portTimedOut s (hostPort k) then .refused
    else .waits
  else if ownStack s sl k then .ok
  else if linkRefused s k then .refused
  else
    match windowEntry s sl k with
    | none => .refused
    | some e => if s.ualUp.getLsbD (linkPort e (lineOf k)) && bits e.toNat 127 120 != 0 then .ok else .refused

/-- The subtype of the deferred error that a refused write is (03 R50, 10 R222). -/
def refusedSub (k : Nat) : Nat := if isHost k then 2 else 1

/-- A key lies in the code world's region of host memory (12 R288). -/
def inRegion (s : State) (k : Nat) : Bool :=
  s.xcsize != 0 && isHost k && hostPort k == s.xcport &&
    decide (s.xcbase * 2 ^ 30 ≤ hostAddr k ∧ hostAddr k < (s.xcbase + s.xcsize) * 2 ^ 30)

/-- A key is the code world's own: a place of its region as the window shows it (12 R288, R289). -/
def isCode (s : State) (k : Nat) : Bool := decide (2 ^ 80 ≤ k) && inRegion s k

/-- A slot word of the directory (12 R291). -/
def slotWord (e : XEntry) : Nat := 2 ^ 63 + e.visible.toNat * 2 ^ 32 + e.age % 2 ^ 20 * 2 ^ 12 + e.frame % 2 ^ 12

/-- A byte of the code world's region beneath its seal (12 R291): frame 0 holds the slot words and the key records, the others their
entries. -/
def codeByte (s : State) (k : Nat) : Byte :=
  let o := hostAddr k - s.xcbase * 2 ^ 30
  let r := o % 2 ^ 24
  if o < 2 ^ 24 then
    if r < 2 ^ 23 then
      match s.xentries.find? (fun e => e.slot == r / 8) with
      | none => 0
      | some e => BitVec.ofNat 8 (slotWord e / 2 ^ (8 * (r % 8)))
    else
      match s.xentries.find? (fun e => e.frame == (r - 2 ^ 23) / 64) with
      | none => 0
      | some e => BitVec.ofNat 8 (e.key / 2 ^ (8 * (r % 64)))
  else
    match s.xentries.find? (fun e => e.frame == o / 2 ^ 24) with
    | none => 0
    | some e => e.code.getD r 0

/-- A line of the code world as its seal makes it (12 R288; log 17). -/
def codeLine (s : State) (line : Nat) : List Byte :=
  Config.codeSealed s.codeKgen (hostAddr line) ((List.range 128).map (fun i => codeByte s (line + i)))

/-- A line of the code world holds a part of an entry, of its slot word or of its key record (12 R291). -/
def codeHeld (s : State) (line : Nat) : Bool :=
  let o := hostAddr line - s.xcbase * 2 ^ 30
  isCode s line && s.xentries.any (fun e =>
    o == e.slot * 8 / 128 * 128 || o == 2 ^ 23 + e.frame * 64 / 128 * 128 ||
      decide (e.frame * 2 ^ 24 ≤ o ∧ o < e.frame * 2 ^ 24 + e.code.length))

/-- A line of the code world whose bytes in host memory are not those that were sealed: its integrity tag fails (11 R271). -/
def tagFails (s : State) (line : Nat) : Bool := codeHeld s line && mreadN s.mem (placeOf line) 128 != codeLine s line

/-- A byte as what lies behind its port, or its stack, gives it. -/
def portByte (s : State) (k : Nat) : Byte := if isCode s k then codeByte s k else mread s.mem k

/-- The poison of a line, with the byte places replaced since (07 R152, 10 R237, 11 R271). -/
def linePoison (s : State) (line : Nat) : Option (BitVec 128) := if tagFails s line then some 0 else tfind s.poison (placeOf line)

/-- A line is poisoned (07 R152). -/
def isPoisoned (s : State) (k : Nat) : Bool := (linePoison s (lineOf k)).isSome

/-- The integrity tag of a poisoned line has failed (11 R271). -/
def tagBad (s : State) (line : Nat) : Bool := tagFails s line || (s.badTags.contains (placeOf line) && (tfind s.poison (placeOf line)).isSome)

/-- What consuming a line's poison tells (10 R237; 11 R257, R271, R275): the key, and whether the line's tag failed. -/
def consumed (s : State) (k : Nat) : Option (Nat × Bool) :=
  if isPoisoned s k || linkRefused s k then some (k, tagBad s (lineOf k)) else none

/-- The 128-bit set of the byte places of some addresses in their line. -/
def byteSet (bs : Tbl Byte) : BitVec 128 := bs.foldl (fun m b => m ||| BitVec.ofNat 128 (2 ^ (b.1 % 128))) 0

/-- Poison once some more byte places have been replaced: it goes with the last of the 128 (10 R237). -/
def replaced (p : Option (BitVec 128)) (m : BitVec 128) : Option (BitVec 128) :=
  p.bind (fun r => if r ||| m = BitVec.allOnes 128 then none else some (r ||| m))

/-- Bytes written into a line that may be poisoned (10 R237). -/
def replacePoison (s : State) (line : Nat) (bs : Tbl Byte) : State :=
  match tfind s.poison line with
  | none => s
  | some m =>
    match replaced (some m) (byteSet bs) with
    | none => { s with poison := tdel s.poison line }
    | some r => { s with poison := tset s.poison line r }

/-- A line takes poison, with none of its bytes replaced yet (07 R152). -/
def poisonLine (s : State) (line : Nat) : State :=
  { s with poison := tset s.poison line 0, badTags := s.badTags.filter (fun l => l != line) }

/-- The marks of a line with those of some bytes written: a byte with no mark loses the old one (08 R187). -/
def setMarks (old : Tbl RelMark) (bs : Tbl Byte) (marks : Tbl RelMark) : Tbl RelMark :=
  bs.foldl (fun t b => match tfind marks b.1 with
    | none => tdel t b.1
    | some r => tset t b.1 r) old

/-- Bytes of one line written behind its port or in its stack, with the release marks they carry (08 R183, R187). -/
def writeHome (s : State) (line : Nat) (bs : Tbl Byte) (marks : Tbl RelMark) : State :=
  let s1 := replacePoison s line bs
  { s1 with mem := bs.foldl (fun m b => mwrite m b.1 b.2) s1.mem, marks := setMarks s1.marks bs marks }

/-- A table of bytes from an address up. -/
def byteTbl (a : Nat) : List Byte → Tbl Byte
  | [] => []
  | b :: bs => (a, b) :: byteTbl (a + 1) bs

/-- Bytes from an address up written at their homes by an agent that carries no marks. -/
def writeHomeN (s : State) (a : Nat) : List Byte → State
  | [] => s
  | b :: bs => writeHomeN (writeHome s (lineOf a) [(a, b)] []) (a + 1) bs

/-- The die of a line's home L2 (07 R150): its stack's; its port's, A west and B east; or that of its UALink port. -/
def homeDie (s : State) (sl line : Nat) : Nat :=
  if isHost line then portIx (hostPort line)
  else if ownStack s sl line then line / 2 ^ 36 / 8
  else
    match windowEntry s sl line with
    | none => 0
    | some e => linkPort e line / 4

/-- The ways that a slice owns of a die's L2 (11 R251). -/
def sliceWays (s : State) (sl die : Nat) : List Nat :=
  let w := (tget {} s.sliceCfg sl).w0.toNat
  (List.range 32).filter (fun n => bitOf w (32 * die + n))

/-- The line that a slice's ways hold. -/
def l2Find (s : State) (sl line : Nat) : Option L2Line := tfind s.l2 (line + sl)

/-- A line in a slice's ways replaced. -/
def putL2 (s : State) (sl line : Nat) (x : L2Line) : State := { s with l2 := tset s.l2 (line + sl) x }

/-- The world of a line that a slice uses (11 R270): the code world's, or the slice's own. -/
def lineWorld (s : State) (sl line : Nat) : Nat := if isCode s line then 17 else sl

/-- A line of the code world that another slice's ways hold serves this one too, and nothing moves (07 R151). -/
def heldElsewhere (s : State) (sl line : Nat) : Bool :=
  isCode s line && s.l2.any (fun e => lineOf e.1 == line && e.1 != line + sl)

/-- The lines that the LLC of a stack can hold (07 R148): 256 MiB. -/
def llcLines : Nat := 2 ^ 21

/-- The lines of an LLC after one more (07 R148): the full LLC of a stack gives up its first (log 100). -/
def llcRoom (t : Tbl Bool) (line : Nat) : Tbl Bool :=
  if (tfind t line).isSome then t
  else
    match t.filter (fun e => e.1 / 2 ^ 36 == line / 2 ^ 36) with
    | [] => t
    | e :: es => if llcLines ≤ es.length + 1 then tdel t e.1 else t

/-- The LLC of a stack holds every line that is read from the stack or written to it (07 R152). -/
def llcTouch (s : State) (line : Nat) (written : Bool) : State :=
  if isHbm line then { s with llc := tset (llcRoom s.llc line) line (written || tget false s.llc line) } else s

/-- Of some lines of one set, the next to be evicted (07 R149): the one used longest ago, and one kept only where all are. -/
def nextOut {α : Type} (keep : α → Bool) (use : α → Nat) (es : Tbl α) : Option (Nat × α) :=
  let es1 := if es.all (fun e => keep e.2) then es else es.filter (fun e => !keep e.2)
  es1.foldl (fun r e => match r with
    | none => some e
    | some b => if use e.2 < use b.2 then some e else r) none

/-- The sets of an L2 of 128 MiB in 32 ways (07 R148). -/
def l2Sets : Nat := 2 ^ 15

/-- The lines that a die's L2 holds in some ways of a line's set (07 R148, R150; log 100). -/
def l2Peers (s : State) (die line : Nat) (ways : List Nat) : Tbl L2Line :=
  s.l2.filter (fun e => ways.contains e.2.way && e.2.die == die && Config.l2Set (lineOf e.1) % l2Sets == Config.l2Set line % l2Sets)

/-- Where a slice's line goes in its home L2 (07 R148-R150; log 100): a free way of the slice's in the line's set, or that of the next to be
evicted there, which leaves unless its port lacks bytes of it. None where the slice owns no way, or none can leave. -/
def l2Place (s : State) (sl line : Nat) : Option (Option Nat × Nat) :=
  let ways := sliceWays s sl (homeDie s sl line)
  let es := l2Peers s (homeDie s sl line) line ways
  match ways.find? (fun w => !es.any (fun e => e.2.way == w)) with
  | some w => some (none, w)
  | none =>
    match nextOut (fun x => x.keep) (fun x => x.use) es with
    | none => none
    | some e => if e.2.dirty.isEmpty then some (some e.1, e.2.way) else none

/-- A line that leaves an L2 with nothing for a port (07 R150, R152): one written goes back to the stack's LLC. -/
def l2Leave (s : State) (key : Nat) : State :=
  match tfind s.l2 key with
  | none => s
  | some x => let s1 := { s with l2 := tdel s.l2 key }; if x.written then llcTouch s1 (lineOf key) true else s1

/-- The place among the lines to evict that an access with a cache hint gives (07 R149): 1 stream is the first to go. -/
def hintUse (s : State) (hint : Nat) : Nat := if hint = 1 then 0 else s.uses + 1

/-- A slice's access at a line's home L2 (07 R149-R151): a line that is there takes its new place; one that is not is allocated in the
slice's ways, unless the hint is no-allocate (3). -/
def l2Touch (s : State) (sl line hint : Nat) (written : Bool) : State :=
  let s1 := { s with uses := s.uses + 1 }
  match l2Find s sl line with
  | some x => putL2 s1 sl line { x with use := hintUse s hint, keep := x.keep || hint == 2, written := x.written || written }
  | none =>
    let s2 := llcTouch s1 line written
    if hint = 3 || heldElsewhere s sl line then s2
    else
      match l2Place s sl line with
      | none => s2
      | some (out, w) =>
        putL2 ((out.map (l2Leave s2)).getD s2) sl line { world := lineWorld s sl line, die := homeDie s sl line, way := w,
                                                         use := hintUse s hint, keep := hint == 2, written := written }

/-- A byte that an L2 copy of a line behind a port holds (07 R150): one not yet written through, else the copy's. -/
def l2Byte (x : L2Line) (k : Nat) : Option Byte :=
  match tfind x.dirty k with
  | some b => some b
  | none => x.clean[k % 128]?

/-- A byte as a slice's relaxed access finds it at its home L2 (07 R150). -/
def homeByte (s : State) (sl k : Nat) : Byte :=
  match (l2Find s sl (lineOf k)).bind (fun x => l2Byte x k) with
  | some b => b
  | none => portByte s k

/-- A byte as an acquire of a slice at .sl or wider finds it (07 R150): the slice's own bytes on their way to the port, else what the port
gives. -/
def freshByte (s : State) (sl k : Nat) : Byte :=
  match (l2Find s sl (lineOf k)).bind (fun x => tfind x.dirty k) with
  | some b => b
  | none => portByte s k

/-- Bytes as a relaxed access finds them. -/
def homeBytes (s : State) (sl k n : Nat) : List Byte := (List.range n).map (fun i => homeByte s sl (k + i))

/-- Bytes as an acquire at .sl or wider finds them. -/
def freshBytes (s : State) (sl k n : Nat) : List Byte := (List.range n).map (fun i => freshByte s sl (k + i))

/-- The marks on a line as a relaxed access finds it: those of a copy on the bytes that the copy holds. -/
def homeMarks (s : State) (sl line : Nat) : Tbl RelMark :=
  let base := tkeep s.marks (fun k _ => lineOf k == line)
  match l2Find s sl line with
  | none => base
  | some x => tkeep base (fun k _ => (l2Byte x k).isNone) ++ x.marks

/-- A line as its home holds it now for a slice. -/
def homeLine (s : State) (sl line : Nat) : L1Line :=
  { bytes := homeBytes s sl line 128, marks := homeMarks s sl line, poison := linePoison s line, world := lineWorld s sl line }

/-- A slice's ways hold a whole copy of a line behind a port. -/
def l2Full (s : State) (sl line : Nat) : Bool := (l2Find s sl line).any (fun x => !x.clean.isEmpty)

/-- A line brought to its home L2 for a slice (07 R150): one behind a port leaves its copy there. -/
def l2Fill (s : State) (sl line hint : Nat) : State :=
  let s1 := l2Touch s sl line hint false
  if ownStack s sl line || reach s sl line != .ok then s1
  else
    match l2Find s1 sl line with
    | none => s1
    | some x =>
      if x.clean.isEmpty then
        putL2 s1 sl line { x with clean := (List.range 128).map (fun i => portByte s (line + i)), marks := homeMarks s1 sl line }
      else s1

/-- The origin record (03 R50). -/
def originRecord (s : State) (core : Nat) (o : Origin) (multi : Bool) : BitVec 128 :=
  let exited := match getWarp s core o.slot with
    | none => true
    | some w => slotGen s core o.slot != o.gen || (liveLanes w == 0)
  BitVec.ofNat 128 (o.ctx * 2 ^ 112 + o.team % 2 ^ 31 * 2 ^ 81 + o.slot * 2 ^ 75 + o.gen % 2 ^ 16 * 2 ^ 59 + exited.toNat * 2 ^ 58 +
    multi.toNat * 2 ^ 57 + o.pc.toNat % 2 ^ 57)

/-- A deferred error found (03 R50): it waits for its record (DEFERRED_ERROR). -/
def deferError (s : State) (core : Nat) (o : Origin) (multi : Bool) (sub : Nat) : State :=
  { s with deferred := s.deferred ++ [{ record := originRecord s core o multi, slice := o.slice, ctx := o.ctx, sub := sub }] }

/-- A deferred error of the last store into an L2 copy. -/
def deferL2 (s : State) (x : L2Line) (sub : Nat) : State :=
  match x.origin with
  | none => s
  | some (core, o) => deferError s core o x.multi sub

/-- A copy's bytes with some of them replaced. -/
def patchBytes (l : List Byte) (bs : Tbl Byte) : List Byte := bs.foldl (fun l b => setAt l (b.1 % 128) b.2) l

/-- The bytes of a slice's L2 copy of a line that its port does not have yet go there, or are refused there (03 R50); while the port does
not answer they stay. -/
def flushLine (s : State) (sl line : Nat) : State :=
  match l2Find s sl line with
  | none => s
  | some x =>
    if x.dirty.isEmpty then s
    else
      match reach s sl line with
      | .waits => s
      | .refused => deferL2 (putL2 s sl line { x with clean := [], dirty := [], marks := [], origin := none, multi := false }) x (refusedSub line)
      | .ok => writeHome (putL2 s sl line { x with clean := patchBytes x.clean x.dirty, dirty := [], written := false, origin := none,
                                                   multi := false,
                                                   marks := if x.clean.isEmpty then [] else x.marks }) line x.dirty x.marks

/-- A slice's L2 copy of a line has bytes for a port that does not answer. -/
def flushWaits (s : State) (sl line : Nat) : Bool :=
  (l2Find s sl line).any (fun x => !x.dirty.isEmpty) && reach s sl line == .waits

/-- The lines that a slice's ways hold. -/
def l2Lines (s : State) (sl : Nat) : List Nat := (s.l2.filter (fun e => e.1 % 128 == sl)).map (fun e => lineOf e.1)

/-- The bytes of some of a slice's L2 copies go to their ports (07 R150, 08 R178); none while one does not answer. -/
def flushLines (s : State) (sl : Nat) (lines : List Nat) : Option State :=
  if lines.any (flushWaits s sl) then none else some (lines.foldl (fun s l => flushLine s sl l) s)

/-- Everything that a slice's ways hold for a port goes there (08 R178, R192); none while a port does not answer. -/
def flushSlice (s : State) (sl : Nat) : Option State := flushLines s sl (l2Lines s sl)

/-- The copies of lines behind ports that an acquire at .sl or wider may not read again leave a slice's ways (07 R150). -/
def freshenSlice (s : State) (sl : Nat) : State :=
  { s with l2 := tmap s.l2 (fun k x => if k % 128 = sl then { x with clean := [], marks := tkeep x.marks (fun a _ => (tfind x.dirty a).isSome) } else x) }

/-- The copy of one line that a write behind its port makes old leaves a slice's ways. -/
def staleLine (s : State) (sl line : Nat) : State :=
  match l2Find s sl line with
  | none => s
  | some x => if x.clean.isEmpty then s
    else putL2 s sl line { x with clean := [], marks := tkeep x.marks (fun a _ => (tfind x.dirty a).isSome) }

/-- Bytes of one line written for a slice by its ringmaster or by Olsan, at the port or the stack (08 R192). -/
def putHome (s : State) (sl k : Nat) (bs : List Byte) : State :=
  staleLine (writeHomeN (l2Touch (flushLine s sl (lineOf k)) sl (lineOf k) 3 true) k bs) sl (lineOf k)

/-- A line read through its home L2 by a table walk, or by a unit of a slice (07 R150, R152, R171). -/
def l2Read (s : State) (sl k : Nat) : State := l2Touch s sl (lineOf k) 0 false

/-- An access to a stack by an agent outside its slice, at its home L2 or at the LLC behind it (07 R152; 08 R192). -/
def stackTouch (s : State) (k : Nat) (written : Bool) : State :=
  match if isHbm k then sliceOfGranule s (k / 2 ^ 36) else none with
  | none => s
  | some sl => l2Touch s sl (lineOf k) 3 written

/-- A line leaves a slice's ways (07 R150): what it has for its port goes there first; it stays while the port does not answer. -/
def l2Drop (s : State) (sl line : Nat) : State :=
  if flushWaits s sl line then s else l2Leave (flushLine s sl line) (line + sl)

/-- The key of a place in the code world's region (12 R291). -/
def codeKey (s : State) (o : Nat) : Nat := 2 ^ 80 + hostAddrKey s.xcport (s.xcbase * 2 ^ 30 + o)

/-- A line of the code world written by Olsan (12 R288, R291): sealed in host memory; no copy of it stays in an L2. -/
def sealLine (s : State) (o : Nat) : State :=
  let line := codeKey s (o / 128 * 128)
  { writeHome s (placeOf line) (byteTbl (placeOf line) (codeLine s line)) [] with
    poison := tdel s.poison (placeOf line), l2 := tkeep s.l2 (fun k _ => placeOf (lineOf k) != placeOf line) }

/-- The slot word of an entry written (12 R291). -/
def sealSlot (s : State) (e : XEntry) : State := sealLine s (8 * e.slot)

/-- The entries of the translation cache replaced, with the slot words of those that change (12 R291). -/
def putEntries (s : State) (es : List XEntry) : State :=
  let gone := s.xentries.filter (fun e => !es.contains e)
  let new := es.filter (fun e => !s.xentries.contains e)
  (gone ++ new).foldl sealSlot { s with xentries := es }

/-- Every translation of the code-world window gone from a slice's TLBs (12 R291, R292). -/
def dropWindowTlbs (s : State) (sl : Nat) : State := { s with tlb := s.tlb.filter (fun e => !(e.slice == 17 && e.ctx == sl)) }

/-- The visibility bits of a slice in the translation cache cleared (12 R292). -/
def hideEntries (s : State) (sl : Nat) : State :=
  putEntries (dropWindowTlbs s sl) (s.xentries.map (fun e => { e with visible := e.visible &&& ~~~(BitVec.ofNat 16 (2 ^ sl)) }))

/-- A slice's ways give up the next line of a line's set (07 R149, R150). -/
def l2Evict (s : State) (sl line : Nat) : State :=
  match nextOut (fun x => x.keep) (fun x => x.use)
      ((l2Peers s (homeDie s sl line) line (sliceWays s sl (homeDie s sl line))).filter (fun e => e.1 % 128 == sl)) with
  | none => s
  | some e => l2Drop s sl (lineOf e.1)

end Sys2Proof.Machine
end

