-- ==== Sys2Proof/Machine/Translate.lean ====
section
/-!
DEFINITION. Address translation (07 R168-R173; 12 R289, R291): the two five-level walks, the TLBs that keep their leaves, the
dirty bit, the code-world window, and the stage 2 that peers' accesses go through. Unit n below 128 is core n's data TLB and 256 + n its
instruction TLB; 128 + d is the shared TLB of die d, which serves them and the engines; 512 + n is what slice n's ringmaster keeps, 768 + n
what serves its peers.
-/
namespace Sys2Proof.Machine

/-- The access of an instruction or operation, as SUB [21:20] numbers it (10 R222). -/
inductive Acc where
  | read
  | write
  | fetch
  | atomic
  deriving DecidableEq, Repr

/-- The number of an access in SUB [21:20] (10 R222). -/
def Acc.code : Acc → Nat
  | .read => 0
  | .write => 1
  | .fetch => 2
  | .atomic => 3

/-- The access needs the write right. -/
def Acc.writes : Acc → Bool
  | .read => false
  | .write => true
  | .fetch => false
  | .atomic => true

/-- Why a translation fails (10 R222, 07 R172): the stage and kind of SUB, with the IA of a stage-2 failure; or a table entry
read from a poisoned line, with what consuming it tells; or a wait for a host port. -/
inductive TrErr where
  | fail (stage2 : Bool) (kind : Nat) (ia : Nat)
  | poison (tag : Option (Nat × Bool))
  | waits
  deriving DecidableEq, Repr

/-- A 64-bit address is canonical in 57 bits (07 R169). -/
def canonical (a : DWord) : Bool := a == (a.setWidth 57).signExtend 64

/-- The 57 bits that a walk indexes (07 R169). -/
def va57 (a : DWord) : Nat := a.toNat % 2 ^ 57

/-- The levels of a walk (07 R169): lowest index bit, index bits, and the alignment of a table at the next level. -/
def walkLevels : List (Nat × Nat × Nat) := [(45, 12, 15), (33, 12, 8), (29, 4, 11), (21, 8, 8), (16, 5, 16)]

/-- What a table entry says (07 R170): the next table, a leaf, or the kind of failure. The first level may hold no leaf and
the last no table. -/
inductive EntryKind where
  | table (base : Nat)
  | leaf (out : Nat) (w x d : Bool)
  | bad (kind : Nat)
  deriving DecidableEq, Repr

/-- A table entry at a level (07 R170). -/
def readEntry (stage2 : Bool) (lo nextAlign : Nat) (e : Nat) : EntryKind :=
  let addr := bits e 51 8 * 2 ^ 8
  if !bitOf e 0 then .bad 0
  else if bits e 63 52 != 0 || bits e 7 5 != 0 then .bad 1
  else if bitOf e 1 then
    if lo = 45 || addr % 2 ^ lo != 0 || (!stage2 && bitOf e 4) then .bad 1 else .leaf addr (bitOf e 2) (bitOf e 3) (bitOf e 4)
  else if lo = 16 || addr % 2 ^ nextAlign != 0 || bitOf e 4 then .bad 1
  else .table addr

/-- A leaf that translates an address: where the page starts, its size, its output, its rights, and the entry's own place. -/
structure Leaf where
  base : Nat
  size : Nat
  out : Nat
  w : Bool
  x : Bool
  d : Bool
  entryPa : Nat
  deriving DecidableEq, Repr

/-- A TLB entry of a unit that covers an address (07 R171). -/
def tlbFind (s : State) (unit sl ctx : Nat) (stage2 : Bool) (a : Nat) : Option TlbEntry :=
  s.tlb.find? (fun e => e.unit == unit && e.slice == sl && e.stage2 == stage2 && (stage2 || e.ctx == ctx) &&
    decide (e.base ≤ a ∧ a < e.base + e.size))

/-- The leaf that a TLB entry keeps. -/
def leafOf (e : TlbEntry) : Leaf :=
  { base := e.base, size := e.size, out := e.out, w := e.w, x := e.x, d := e.d, entryPa := e.entryPa }

/-- The entries of a unit's TLB (07 R171): a core's own for data and for instructions, and a die's. What a ringmaster and the unit that serves
peers keep, the spec does not bound (log 25). -/
def tlbSize (unit : Nat) : Option Nat :=
  if unit < 128 then some 256 else if unit < 256 then some 65536 else if unit < 384 then some 64 else none

/-- A unit's TLB with room for one more entry (07 R171): a full one gives up its oldest (log 25). -/
def tlbRoom (t : List TlbEntry) (unit : Nat) : List TlbEntry :=
  if (tlbSize unit).any (fun n => decide (n ≤ (t.filter (fun e => e.unit == unit)).length)) then t.eraseP (fun e => e.unit == unit) else t

/-- A leaf kept in a unit's TLB (07 R171). -/
def tlbAdd (s : State) (unit sl ctx : Nat) (stage2 : Bool) (l : Leaf) : State :=
  let e : TlbEntry := { unit := unit, slice := sl, ctx := ctx, stage2 := stage2, base := l.base, size := l.size, out := l.out, w := l.w,
                        x := l.x, d := l.d, entryPa := l.entryPa }
  { s with tlb := tlbRoom s.tlb unit ++ [e] }

/-- A core's TLB for fetches (07 R171). -/
def fetchUnit (core : Nat) : Nat := 256 + core

/-- The unit whose TLB a core's engines use: its die's. -/
def dieUnit (core : Nat) : Nat := 128 + dieOf core

/-- The unit whose translations a slice's ringmaster keeps. -/
def ringUnit (sl : Nat) : Nat := 512 + sl

/-- The unit that translates what a slice's peers ask for. -/
def peerUnit (sl : Nat) : Nat := 768 + sl

/-- The shared TLB behind a core's own (07 R171). -/
def sharedUnit (unit : Nat) : Option Nat :=
  if unit < 128 then some (dieUnit unit) else if 256 ≤ unit ∧ unit < 384 then some (dieUnit (unit - 256)) else none

/-- A table entry as a walk reads it through L2 (07 R171, R172; 11 R258): its bytes, or why the walk cannot go on. -/
def readTable (s : State) (sl k : Nat) : Except TrErr (Nat × State) :=
  if isPoisoned s k then .error (.poison (consumed s k))
  else if reach s sl k == .waits then .error .waits
  else if isHost k && reach s sl k == .refused then .error (.poison none)
  else .ok (bytesNat (freshBytes s sl k 8), l2Read s sl k)

/-- A stage-2 walk from a table at a physical address (07 R169, R170): the leaf, or the failure. -/
def walk2 (sl ia : Nat) : List (Nat × Nat × Nat) → Nat → State → Except TrErr (Leaf × State)
  | [], _, _ => .error (.fail true 1 ia)
  | (lo, n, al) :: ls, base, s =>
    let k := memKey (slicePort s sl) (base + ia / 2 ^ lo % 2 ^ n * 8)
    match readTable s sl k with
    | .error e => .error e
    | .ok (e, s1) =>
      match readEntry true lo al e with
      | .bad kind => .error (.fail true kind ia)
      | .table b => walk2 sl ia ls b s1
      | .leaf out w x d =>
        .ok ({ base := ia / 2 ^ lo * 2 ^ lo, size := 2 ^ lo, out := out, w := w, x := x, d := d, entryPa := k }, s1)

/-- A leaf that a unit finds in its TLB, or in the shared one behind it, which it then keeps (07 R171). -/
def tlbLook (s : State) (unit sl ctx : Nat) (stage2 : Bool) (a : Nat) : Option (Leaf × State) :=
  match tlbFind s unit sl ctx stage2 a with
  | some e => some (leafOf e, s)
  | none =>
    match sharedUnit unit with
    | none => none
    | some u => (tlbFind s u sl ctx stage2 a).map (fun e => (leafOf e, tlbAdd s unit sl ctx stage2 (leafOf e)))

/-- A leaf that a walk has found, kept in the shared TLB and in the unit's own (07 R171). -/
def tlbKeep (s : State) (unit sl ctx : Nat) (stage2 : Bool) (l : Leaf) : State :=
  match sharedUnit unit with
  | none => tlbAdd s unit sl ctx stage2 l
  | some u => tlbAdd (tlbAdd s u sl ctx stage2 l) unit sl ctx stage2 l

/-- The unit that walks for another (07 R171). -/
def walkUnit (unit : Nat) : Nat := (sharedUnit unit).getD unit

/-- The code-world window of intermediate addresses (12 R289). -/
def inWindow (ia : Nat) : Bool := decide (0xFF00000000000 ≤ ia ∧ ia < 2 ^ 52)

/-- The right denied, as SUB kind (10 R222). -/
def Acc.denied : Acc → Nat
  | .read => 4
  | .write => 5
  | .fetch => 6
  | .atomic => 5

/-- A slot word as the walker reads it (12 R291): none where the slot holds no entry. A leaf's rights and its visibility bits stand for
the word: w of the leaf is never set, and its size names the bits above a frame's 2^24 bytes. -/
def readSlot (s : State) (sl slot : Nat) : Except TrErr (Option Leaf × State) :=
  if s.xcsize = 0 then .ok (none, s)
  else
    match readTable s sl (codeKey s (slot * 8)) with
    | .error e => .error e
    | .ok (w, s1) =>
      if !bitOf w 63 then .ok (none, s1)
      else .ok (some { base := 0xFF00000000000 + slot * 2 ^ 24, size := 2 ^ 24, out := codeKey s (bits w 11 0 * 2 ^ 24), w := false, x := true,
                       d := bitOf w (32 + sl), entryPa := codeKey s (slot * 8) }, s1)

/-- The slot word of a window address from the unit's TLBs, or read and kept there with the tag of the code world (12 R291): d of the leaf
is the slice's visibility bit. -/
def slotLeaf (s : State) (unit sl ia : Nat) : Except TrErr (Option Leaf × State) :=
  match tlbLook s unit 17 sl false ia with
  | some (l, s1) => .ok (some l, s1)
  | none =>
    match readSlot s sl ((ia - 0xFF00000000000) / 2 ^ 24) with
    | .error e => .error e
    | .ok (none, s1) => .ok (none, s1)
    | .ok (some l, s1) => .ok (some l, tlbKeep s1 unit 17 sl false l)

/-- An address of the code-world window (12 R289, R291): a read or fetch within an entry that the slice may see. -/
def windowKey (s : State) (unit sl ia : Nat) (acc : Acc) : Except TrErr (Nat × State) :=
  match slotLeaf s unit sl ia with
  | .error e => .error e
  | .ok (none, _) => .error (.fail true acc.denied ia)
  | .ok (some l, s1) =>
    if !l.d then .error (.fail true acc.denied ia)
    else if acc.writes then .error (.fail true 5 ia)
    else .ok (l.out + ia % 2 ^ 24, s1)

/-- A slice may reach a physical address (07 R168): its own stacks, its routing windows, host memory. -/
def mayReach (s : State) (sl pa : Nat) : Bool :=
  if pa < 2 ^ 40 then sliceOfGranule s (pa / 2 ^ 36) == some sl
  else if isLink pa then (routeOf (getSlice s sl) pa).isSome
  else decide (2 ^ 51 ≤ pa ∧ pa < 2 ^ 52)

/-- A stage-2 leaf from the unit's TLBs, or by a walk that keeps it there (07 R171): none while the slice's stage 2 is not enabled (11
R260). -/
def leaf2 (s : State) (unit sl ia : Nat) : Except TrErr (Leaf × State) :=
  if !(getSlice s sl).s2enable then .error (.fail true 0 ia)
  else
    match tlbLook s unit sl 0 true ia with
    | some r => .ok r
    | none =>
      match walk2 sl ia walkLevels (getSlice s sl).s2root s with
      | .error e => .error e
      | .ok (l, s1) => .ok (l, tlbKeep s1 unit sl 0 true l)

/-- The dirty bit set in memory and in the TLBs, before the first write through a leaf that has it clear (07 R173): the write waits for it
where the table lies in host memory behind a link that is down (11 R258). -/
def setDirty (s : State) (unit sl : Nat) (l : Leaf) : Except TrErr State :=
  if l.d then .ok s
  else
    match readTable s sl l.entryPa with
    | .error e => .error e
    | .ok (_, s1) =>
      .ok { l2Touch s1 sl (lineOf l.entryPa) 3 true with
        mem := mwrite s.mem l.entryPa (mread s.mem l.entryPa ||| 0x10)
        tlb := s.tlb.map (fun e => if (e.unit == unit || some e.unit == sharedUnit unit) && e.slice == sl && e.stage2 && e.base == l.base &&
          e.size == l.size then { e with d := true } else e) }

/-- The rights of a stage-2 leaf for an access, and the dirty bit (07 R172, R173). -/
def useLeaf2 (s : State) (unit sl ia : Nat) (l : Leaf) (acc : Acc) : Except TrErr State :=
  if acc.writes && !l.w then .error (.fail true 5 ia)
  else if acc == .fetch && !l.x then .error (.fail true 6 ia)
  else if acc.writes then setDirty s unit sl l
  else .ok s

/-- The receiving package takes a request's key (11 R278): the slice's current generation, or during a sweep the one before. -/
def keyTaken (s : State) (sl kgen : Nat) : Bool :=
  let x := getSlice s sl
  kgen == x.kgen || (x.sweeping && (kgen + 1) % 2 ^ 32 == x.kgen)

/-- An address that a peer names at a slice (08 R192; 11 R278, log 101): an intermediate address, which the slice's stage 2 translates, to a
stack of the slice. The code-world window is the slice's own, and leads a peer nowhere (12 R289). -/
def peerKey (s : State) (sl ia : Nat) (acc : Acc) : Except TrErr (Nat × State) :=
  if inWindow (ia % 2 ^ 52) then .error (.fail true acc.denied (ia % 2 ^ 52))
  else match leaf2 s (peerUnit sl) sl (ia % 2 ^ 52) with
  | .error e => .error e
  | .ok (l, s1) =>
    let pa := l.out + ia % 2 ^ 52 % l.size
    if !ownStack s sl pa then .error (.fail true 3 (ia % 2 ^ 52))
    else
      match useLeaf2 s1 (peerUnit sl) sl (ia % 2 ^ 52) l acc with
      | .error e => .error e
      | .ok s2 => .ok (pa, s2)

/-- The key of an address of a UALink window (11 R278, R279; log 101): one of this package's windows leads through the stage 2 of the slice
that it names; what that slice does not take keeps the window's own key, which no one answers. -/
def linkKey (s : State) (sl pa : Nat) (acc : Acc) : Except TrErr (Nat × State) :=
  match routeOf (getSlice s sl) pa with
  | none => .error (.fail true 3 pa)
  | some e =>
    let k := pkgKey e pa
    if routeTarget e / 16 != s.pkgid then .ok (k, s)
    else if !keyTaken s (routeTarget e % 16) (bits e.toNat 91 60) then .ok (k, s)
    else
      match peerKey s (routeTarget e % 16) (k % 2 ^ 50) acc with
      | .ok r => .ok r
      | .error .waits => .error .waits
      | .error (.poison _) => .ok (k, s)
      | .error (.fail _ _ _) => .ok (k, s)

/-- An intermediate address translated for an access (07 R168-R173): a memory key, and the state with its TLBs and dirty bits. Bits above
the 52 of an intermediate address count as zero (07 R169). The code world's region of host memory takes no slice's write (07 R151, 12
R288). -/
def translate2 (s : State) (unit sl addr : Nat) (acc : Acc) : Except TrErr (Nat × State) :=
  let ia := addr % 2 ^ 52
  if inWindow ia then windowKey s unit sl ia acc
  else
    match leaf2 s unit sl ia with
    | .error e => .error e
    | .ok (l, s1) =>
      let pa := l.out + ia % l.size
      if !mayReach s sl pa then .error (.fail true 3 ia)
      else if acc.writes && inRegion s (memKey (slicePort s sl) pa) then .error (.fail true 5 ia)
      else
        match useLeaf2 s1 unit sl ia l acc with
        | .error e => .error e
        | .ok s2 => if isLink pa then linkKey s2 sl pa acc else .ok (memKey (slicePort s sl) pa, s2)

/-- A stage-1 walk from a table at an intermediate address (07 R169, R172): each entry is read through stage 2. -/
def walk1 (unit sl : Nat) (va : Nat) : List (Nat × Nat × Nat) → Nat → State → Except TrErr (Leaf × State)
  | [], _, _ => .error (.fail false 1 0)
  | (lo, n, al) :: ls, base, s =>
    match translate2 s unit sl (base + va / 2 ^ lo % 2 ^ n * 8) .read with
    | .error e => .error e
    | .ok (k, s1) =>
      match readTable s1 sl k with
      | .error e => .error e
      | .ok (e, s2) =>
        if reach s1 sl k == .refused then .error (.poison (consumed s1 k))
        else
          match readEntry false lo al e with
          | .bad kind => .error (.fail false kind 0)
          | .table b => walk1 unit sl va ls b s2
          | .leaf out w x _ =>
            .ok ({ base := va / 2 ^ lo * 2 ^ lo, size := 2 ^ lo, out := out, w := w, x := x, d := true, entryPa := k }, s2)

/-- A stage-1 leaf from the unit's TLBs, or by a walk of the die's walkers that keeps it there (07 R171). -/
def leaf1 (s : State) (unit sl ctx va : Nat) : Except TrErr (Leaf × State) :=
  match tlbLook s unit sl ctx false va with
  | some r => .ok r
  | none =>
    match walk1 (walkUnit unit) sl va walkLevels (getCtx s sl ctx).s1root s with
    | .error e => .error e
    | .ok (l, s1) => .ok (l, tlbKeep s1 unit sl ctx false l)

/-- A virtual address translated for an access (07 R169-R173): a memory key, and the state with its TLBs and dirty bit. -/
def translate (s : State) (unit sl ctx : Nat) (va : DWord) (acc : Acc) : Except TrErr (Nat × State) :=
  if !canonical va then .error (.fail false 2 0)
  else
    match leaf1 s unit sl ctx (va57 va) with
    | .error e => .error e
    | .ok (l, s1) =>
      if acc.writes && !l.w then .error (.fail false 5 0)
      else if acc == .fetch && !l.x then .error (.fail false 6 0)
      else translate2 s1 unit sl (l.out + va57 va % l.size) acc

/-- The cause code and SUB of a failed translation (10 R220, R222). -/
def trCause (acc : Acc) : TrErr → Nat × Nat
  | .poison _ => (0x25, 2)
  | .waits => (0x25, 2)
  | .fail stage2 kind _ =>
    (if kind ≤ 2 then 0x23 else 0x24, stage2.toNat + kind * 2 + acc.code * 16)

/-- The async-op error of a failed translation (10 R222). -/
def trOpErr : TrErr → Nat
  | .poison _ => 12
  | .waits => 12
  | .fail _ kind _ => if kind ≤ 2 then 1 else 2

/-- The IA of a stage-2 failure. -/
def trIa : TrErr → Option Nat
  | .fail true _ ia => some ia
  | .fail false _ _ => none
  | .poison _ => none
  | .waits => none

/-- The poison that a failed translation has consumed. -/
def trTag : TrErr → Option (Nat × Bool)
  | .poison tag => tag
  | .fail _ _ _ => none
  | .waits => none

/-- A violation told to the slice whose memory was asked for (11 R275). -/
def tellViolation (s : State) (sl pa : Nat) : State :=
  raiseNotice { s with fresh := s.fresh + 1 } sl { kind := 0, addr := pa, cycles := Config.olsanClock s.fresh }

/-- The stack of another slice that an intermediate address of a slice leads to (07 R168): its slice and the address. -/
def foreignStack (s : State) (sl ia : Nat) : Option (Nat × Nat) :=
  match if inWindow ia then .error .waits else leaf2 s (ringUnit sl) sl ia with
  | .error _ => none
  | .ok (l, _) =>
    let pa := l.out + ia % l.size
    if !isHbm pa then none
    else (sliceOfGranule s (pa / 2 ^ 36)).bind (fun r => if r = sl then none else some (r, pa))

/-- A slice of this package that refuses another's access through a window is told of the violation (11 R275, R278; log 116): the access came
under a key that the slice does not take, or asked for memory outside the slice's own. -/
def tellLink (s : State) (sl k : Nat) : State :=
  let target := (k - 2 ^ 72) / 2 ^ 50 % 16
  let ia := (k - 2 ^ 72) % 2 ^ 50
  match if linkRefused s k then windowEntry s sl k else none with
  | none => s
  | some e =>
    if !keyTaken s target (bits e.toNat 91 60) then tellViolation s target ia
    else
      match peerKey s target ia .read with
      | .error (.fail _ 3 _) => tellViolation s target ia
      | .error (.fail _ _ _) | .error (.poison _) | .error .waits => s
      | .ok _ => s

/-- What a slice's consumer of poison sets off: its VF reports a consumed line (11 R257, R274; log 54), a failed integrity tag is told to the
tenant (11 R271, R275), and an access that another slice refused is told to that one. -/
def tellTag (s : State) (sl : Nat) (tag : Option (Nat × Bool)) : State :=
  match tag with
  | none => s
  | some (k, bad) =>
    if linkRefused s k then tellLink s sl k
    else
      let s1 := noteContained s sl
      if bad then raiseNotice { s1 with fresh := s1.fresh + 1 } sl { kind := 1, addr := k, cycles := Config.olsanClock s1.fresh } else s1

/-- A slice whose stack a refused intermediate address leads to is told of the violation (11 R275). -/
def tellForeign (s : State) (sl ia : Nat) : State :=
  match foreignStack s sl ia with
  | none => s
  | some (r, pa) => tellViolation s r pa

/-- A stage-2 fault reported to the host (07 R172, 11 R256, R260), and to a slice whose stack the address leads to (11 R275). -/
def reportStage2 (s : State) (sl ctx ia : Nat) : State :=
  let s1 := tellForeign s sl ia
  raiseEvent (putSlice s1 sl { getSlice s1 sl with s2flt := BitVec.ofNat 64 ia }) sl 5 ctx 0 0 0 (BitVec.ofNat 64 ia)

/-- What a failed translation sets off (07 R172; 11 R257, R271, R275): the report of a fault of stage 2, or of the poison that was consumed. -/
def reportTr (s : State) (sl ctx : Nat) (e : TrErr) : State :=
  match trIa e with
  | none => tellTag s sl (trTag e)
  | some ia => reportStage2 s sl ctx ia

/-- What a failed translation tells where the spec reports no fault of stage 2 to the host: the slice whose stack was asked for, or the
poison that was consumed (11 R257, R271, R275). -/
def tellTr (s : State) (sl : Nat) (e : TrErr) : State :=
  match trIa e with
  | none => tellTag s sl (trTag e)
  | some ia => tellForeign s sl ia

end Sys2Proof.Machine
end

