-- ==== Sys2Proof/Machine/Memory.lean ====
section
/-!
DEFINITION. Memory as a core and its engines reach it (03 R48-R51; 07 R148-R152; 08 R176-R190; 10 R237): each core's store buffer and L1,
which loads read, stores enter and engines write behind.
-/
namespace Sys2Proof.Machine

/-- A clean L1 copy brought up to date with bytes that its own core wrote (03 R48): its poison goes once all of its bytes have been replaced
(10 R237). -/
def patchClean (c : Core) (line : Nat) (bs : Tbl Byte) (marks : Tbl RelMark) : Core :=
  match tfind c.clean line with
  | none => c
  | some l => { c with clean := tset c.clean line { l with
      bytes := patchBytes l.bytes bs, marks := setMarks l.marks bs marks, poison := replaced l.poison (byteSet bs) } }

/-- A retired store's bytes go to the port of their line, past its home L2 (07 R150). -/
def landsAtPort (s : State) (e : PStore) : Bool :=
  let sl := e.origin.slice
  !ownStack s sl e.line && (e.through || linkRefused s e.line || ((l2Find s sl e.line).isNone && (e.hint == 3 || (l2Place s sl e.line).isNone)))

/-- A retired store cannot reach its home yet: its port does not answer, or, of a release at .sl or wider, the port of something that its
slice's ways hold (08 R178). -/
def landWaits (s : State) (e : PStore) : Bool :=
  (landsAtPort s e && reach s e.origin.slice e.line == .waits) ||
    (e.through && (l2Lines s e.origin.slice).any (flushWaits s e.origin.slice))

/-- A store's bytes accepted by the home L2 of a line behind a port (03 R50, 07 R150): the line keeps the last origin, and notes more than
one. -/
def l2Store (s : State) (sl core : Nat) (e : PStore) : State :=
  let s1 := l2Touch s sl e.line e.hint true
  match l2Find s1 sl e.line with
  | none => writeHome s1 e.line e.bytes e.marks
  | some x => putL2 s1 sl e.line { x with
      dirty := e.bytes.foldl (fun t b => tset t b.1 b.2) x.dirty
      marks := setMarks x.marks e.bytes e.marks
      origin := some (core, e.origin)
      multi := e.multi || (x.origin.any (fun o => o != (core, e.origin)) && (x.multi || !x.dirty.isEmpty)) }

/-- A store's bytes written at the stack or behind the port of their line: an error that waits for the line's write-back poisons it, and is
a deferred error of the store (03 R50, 07 R152). -/
def portStore (s : State) (core : Nat) (e : PStore) : State :=
  let s1 := staleLine (writeHome (l2Touch s e.origin.slice e.line (if landsAtPort s e then 3 else e.hint) true) e.line e.bytes e.marks)
    e.origin.slice e.line
  if s1.wbErr.contains e.line then
    deferError (poisonLine { s1 with wbErr := s1.wbErr.filter (· != e.line) } e.line) core e.origin e.multi 0
  else s1

/-- A retired store's bytes reach their home, or are refused there (03 R50). A release at .sl or wider goes behind what its slice's ways
hold for their ports (08 R178). -/
def landStore (s : State) (core : Nat) (e : PStore) : State :=
  let sl := e.origin.slice
  let s0 := if e.through then (flushSlice s sl).getD s else s
  let s1 := putCore s0 core (patchClean (getCore s0 core) e.line e.bytes e.marks)
  if ownStack s sl e.line then portStore s1 core e
  else if !landsAtPort s e then l2Store s1 sl core e
  else
    match reach s sl e.line with
    | .waits => s
    | .refused => deferError (tellLink s0 sl e.line) core e.origin e.multi (refusedSub e.line)
    | .ok => portStore s1 core e

/-- An older retired store reaches home before a younger one (08 R178, R182): always before a release, a store of its own line, and a store
behind a release fence that came after it. -/
def goesBefore (e f : PStore) : Bool := f.release || f.line == e.line || decide (e.epoch < f.after)

/-- The retired stores that must reach home before some of them are all there: those, and every older one that goes before one of these. -/
def mustLand (picked : PStore → Bool) : List PStore → List Bool
  | [] => []
  | e :: t =>
    let r := mustLand picked t
    (picked e || (t.zip r).any (fun f => f.2 && goesBefore e f.1)) :: r

/-- A retired store put at the end of a core's list. -/
def keepStore (s : State) (core : Nat) (e : PStore) : State :=
  putCore s core { getCore s core with pend := (getCore s core).pend ++ [e] }

/-- Every retired store of a core that the flags pick lands; the others stay. -/
def landPicked (s : State) (core : Nat) : List PStore → List Bool → State
  | [], _ => s
  | e :: t, [] => landPicked (keepStore s core e) core t []
  | e :: t, b :: bs =>
    if b then landPicked (landStore s core e) core t bs
    else landPicked (keepStore s core e) core t bs

/-- A picked store cannot land yet: a port does not answer. -/
def pickedWaits (s : State) (p : List PStore) (flags : List Bool) : Bool :=
  (p.zip flags).any (fun e => e.2 && (landWaits s e.1 || (e.1.through && p.any (fun f => reach s f.origin.slice f.line == .waits))))

/-- Some of a core's retired stores reach home, with what must go before them; none while one of them waits for a link. -/
def drainSome (s : State) (core : Nat) (picked : PStore → Bool) : Option State :=
  let p := (getCore s core).pend
  let f := mustLand picked p
  if pickedWaits s p f then none
  else some (landPicked (putCore s core { getCore s core with pend := [] }) core p f)

/-- A core's retired stores to a line reach home. -/
def drainLine (s : State) (core line : Nat) : Option State := drainSome s core (fun e => e.line == line)

/-- Every retired store of a core reaches home; none while one waits for a link. -/
def drainAll (s : State) (core : Nat) : Option State := drainSome s core (fun _ => true)

/-- Every retired store of a core becomes visible at the point of a scope (08 R178): at the home, and from .sl on behind the ports. -/
def drainScope (s : State) (core sl scope : Nat) : Option State :=
  (drainAll s core).bind (fun s1 => if 4 ≤ scope then flushSlice s1 sl else some s1)

/-- The retired stores of the slice's cores brought home (03 R51); none while a port does not answer. -/
def drainCores : List Nat → State → Option State
  | [], s => some s
  | c :: cs, s =>
    match drainAll s c with
    | none => none
    | some s1 => drainCores cs s1

/-- The newest retired store of a core that holds a byte: the byte, its mark, and whether it has left the buffer for the L1. -/
def newestByte (c : Core) (k : Nat) : Option (Byte × Option RelMark × Bool) :=
  c.pend.foldl (fun r e => if e.line != lineOf k then r else
    match tfind e.bytes k with
    | none => r
    | some b => some (b, tfind e.marks k, e.inL1)) none

/-- What a load of one access returns: bytes, the marks they carry, and whether poison was consumed. -/
structure Loaded where
  bytes : List Byte
  marks : List RelMark
  poisoned : Bool
  deriving DecidableEq, Repr

/-- The line that a core's load reads beneath its retired stores (03 R48, 08 R179): its clean copy, or the home's line. -/
def lineFor (s : State) (core sl line : Nat) : L1Line :=
  match tfind (getCore s core).clean line with
  | none => homeLine s sl line
  | some l => l

/-- The byte places of a line that a core's stores in the L1 have replaced. -/
def l1Stored (c : Core) (line : Nat) : BitVec 128 :=
  (c.pend.filter (fun e => e.line == line && e.inL1)).foldl (fun m e => m ||| byteSet e.bytes) 0

/-- The line that a core's load reads carries poison that the core's stores in the L1 have not replaced whole (10 R237). -/
def l1Poisoned (s : State) (core sl line : Nat) : Bool :=
  (replaced (lineFor s core sl line).poison (l1Stored (getCore s core) line)).isSome

/-- A line is at hand for a core: in its L1, or in the slice's ways. -/
def lineHeld (s : State) (core sl line : Nat) : Bool := (tfind (getCore s core).clean line).isSome || l2Full s sl line

/-- One access of a core's load (03 R48): each byte from the newest retired store that holds it, else from the line. A refused
line reads as poisoned data (16 R396), until the core's stores in the L1 have replaced it whole (10 R237). -/
def loadBytes (s : State) (core sl k n : Nat) : Loaded :=
  let c := getCore s core
  let l := lineFor s core sl (lineOf k)
  let cells := (List.range n).map (fun i =>
    match newestByte c (k + i) with
    | some (b, m, inL1) => (b, m, inL1)
    | none => (l.bytes.getD ((k + i) % 128) 0, tfind l.marks (k + i), true))
  { bytes := cells.map (fun x => x.1), marks := cells.filterMap (fun x => x.2.1),
    poisoned := cells.any (fun x => x.2.2) && (l1Poisoned s core sl (lineOf k) ||
      (!lineHeld s core sl (lineOf k) && reach s sl k == .refused && l1Stored c (lineOf k) != BitVec.allOnes 128)) }

/-- A load must wait: a byte comes from a line whose port does not answer. -/
def loadWaits (s : State) (core sl k n : Nat) : Bool :=
  reach s sl k == .waits && !lineHeld s core sl (lineOf k) && (List.range n).any (fun i => (newestByte (getCore s core) (k + i)).isNone)

/-- A core's use of a line of its L1 (07 R149). -/
def l1Use (s : State) (hint : Nat) (l : L1Line) : L1Line := { l with use := hintUse s hint, keep := l.keep || hint == 2 }

/-- The lines of an L1 (07 R148): 256 KiB. -/
def l1Capacity : Nat := 2048

/-- The lines that a core's stores have put into its L1. -/
def l1Dirty (c : Core) : List Nat := ((c.pend.filter (fun e => e.inL1 && !e.flight)).map (fun e => e.line)).eraseDups

/-- A core whose L1 has room for a line (07 R148, R149; log 100): a full L1 gives up the next clean line of the line's set, or of all; none
where each of its lines waits to be written back. -/
def l1Room (c : Core) (line : Nat) : Option Core :=
  let dirty := l1Dirty c
  if (tfind c.clean line).isSome || dirty.contains line ||
      decide (c.clean.length + (dirty.filter (fun l => (tfind c.clean l).isNone)).length < l1Capacity) then some c
  else
    let es := c.clean.filter (fun e => !dirty.contains e.1)
    let near := es.filter (fun e => Config.l1Set e.1 == Config.l1Set line)
    (nextOut (fun x => x.keep) (fun x => x.use) (if near.isEmpty then es else near)).map (fun e => { c with clean := tdel c.clean e.1 })

/-- The line that an access reads stays in the core's L1 as a clean copy, and at its home L2 on the way (07 R149), unless the hint is
no-allocate, the line cannot be had, or the L1 has no room. -/
def fillLine (s : State) (core sl line hint : Nat) : State :=
  let s0 := { s with uses := s.uses + 1 }
  match tfind (getCore s core).clean line with
  | some l => putCore s0 core { getCore s core with clean := tset (getCore s core).clean line (l1Use s hint l) }
  | none =>
    if reach s sl line != .ok && !l2Full s sl line then s
    else if hint = 3 then l2Touch s sl line 3 false
    else
      let s1 := l2Fill s sl line hint
      match l1Room (getCore s1 core) line with
      | none => s1
      | some c => putCore s1 core { c with clean := tset c.clean line (l1Use s1 hint (homeLine s1 sl line)) }

/-- The copies that an acquire at .cl or wider may not read again leave the core's L1 (08 R179). -/
def dropClean (s : State) (core : Nat) : State := putCore s core { getCore s core with clean := [] }

/-- What an acquire or a release at a scope does to the copies that later reads could find (07 R150; 08 R179, R185; log 117): at .cl and wider
those of the core's L1 go, at .sl and wider those of its slice's ways too, so that who reads on what a release has passed on finds no older
copy on this core. -/
def acquireCopies (s : State) (core sl scope : Nat) : State :=
  if scope < 3 then s else if scope = 3 then dropClean s core else freshenSlice (dropClean s core) sl

/-- An acquire read of some lines at a scope (07 R150): at .sl or wider their slice's own bytes go to the port first; none while a port
does not answer. -/
def acquireLines (s : State) (core sl scope : Nat) (lines : List Nat) : Option State :=
  if scope < 4 then some (acquireCopies s core sl scope)
  else (flushLines s sl lines).map (fun s1 => acquireCopies s1 core sl scope)

/-- Store-buffer entries in use (03 R49). -/
def bufferCount (c : Core) : Nat := (c.pend.filter (fun e => !e.inL1)).length

/-- The newest retired store of a core to a line, if it is still in the store buffer and no release fence that a younger store is behind has
come since: its place in the list. -/
def mergePlace (p : List PStore) (line after : Nat) : Option Nat :=
  match (p.zipIdx.filter (fun e => e.1.line == line)).getLast? with
  | none => none
  | some e => if e.1.inL1 || decide (e.1.epoch < after) then none else some e.2

/-- A younger store's bytes join an entry of its line, which keeps the younger origin (03 R50). -/
def mergeStore (o e : PStore) : PStore :=
  { o with
    bytes := e.bytes.foldl (fun t b => tset t b.1 b.2) o.bytes
    marks := setMarks o.marks e.bytes e.marks
    hint := e.hint
    origin := e.origin
    multi := o.multi || e.multi || o.origin != e.origin
    after := max o.after e.after }

/-- A release store takes an entry of its own; a plain store joins the newest entry of its line (03 R49, R50). -/
def pushStore (c : Core) (e : PStore) : Core :=
  match if e.release then none else mergePlace c.pend e.line e.after with
  | none => { c with pend := c.pend ++ [e] }
  | some i =>
    match c.pend[i]? with
    | none => { c with pend := c.pend ++ [e] }
    | some o => { c with pend := setAt c.pend i (mergeStore o e) }

/-- The store buffer is full (03 R49). -/
def bufferFull (c : Core) : Bool := decide (64 ≤ bufferCount c)

/-- A store needs an entry of its own (03 R49, R50). -/
def needsEntry (c : Core) (line : Nat) (release : Bool) (after : Nat) : Bool := release || (mergePlace c.pend line after).isNone

/-- A retired store moves from the store buffer into the L1 (03 R49): it joins the line's entry there, which keeps the younger origin
and sets MULTI (03 R50), but a release keeps its own place, and so does a store behind a release fence that came after the other. -/
def intoL1 (p : List PStore) (i : Nat) : List PStore :=
  match p[i]? with
  | none => p
  | some e =>
    match ((p.take i).zipIdx.filter (fun f => f.1.line == e.line)).getLast? with
    | some (o, k) =>
      if o.inL1 && !o.flight && !e.release && !e.inL1 && decide (e.after ≤ o.epoch) then (setAt p k (mergeStore o e)).eraseIdx i else setAt p i { e with inL1 := true }
    | none => setAt p i { e with inL1 := true }

/-- A byte as a core's engines observe it (08 R188): the issuing core's retired stores over the home. -/
def engineByte (s : State) (core sl k : Nat) : Byte :=
  match newestByte (getCore s core) k with
  | some (b, _, _) => b
  | none => homeByte s sl k

/-- Bytes as an engine reads them for an operation of a core. -/
def engineBytes (s : State) (core sl k n : Nat) : List Byte := (List.range n).map (fun i => engineByte s core sl (k + i))

/-- A core's clean copy of a line is dropped. -/
def dropLine (s : State) (core line : Nat) : State :=
  putCore s core { getCore s core with clean := tdel (getCore s core).clean line }

/-- An engine's bytes written for an operation of a core (08 R188, R189): they are on their way to the home behind what the core stored before
the operation's issue, past its store buffer, and the line is gone from the core's L1. -/
def engineWrite (s : State) (core k : Nat) (bs : List Byte) (origin : Origin) (mark : Option RelMark) (after : Nat) : State :=
  let e : PStore := { line := lineOf k, bytes := byteTbl k bs,
                      marks := match mark with
                        | none => []
                        | some r => (List.range bs.length).map (fun i => (k + i, r)),
                      release := false, inL1 := true, origin := origin, multi := false, epoch := (getCore s core).fences, after := after,
                      flight := true }
  let s1 := dropLine s core (lineOf k)
  putCore s1 core { getCore s1 core with pend := (getCore s1 core).pend ++ [e] }

/-- What a core holds of memory leaves it when another owner gets it. -/
def dropSlice (s : State) (core : Nat) : State := putCore s core { getCore s core with clean := [], pend := [] }

/-- An agent lies in a scope of another (08 R178): 1 warp, 2 the context on the core, 3 on the cluster, 4 the slice, 5 the module's
threads, 6 all. A mark of slice 16 is of a thread of another package, met before an import. -/
def scopeIncludes (scope : Nat) (core slot gen slice ctx : Nat) (m : RelMark) : Bool :=
  match scope with
  | 1 => m.core == core && m.slot == slot && m.gen == gen
  | 2 => m.core == core && m.slice == slice && m.ctx == ctx
  | 3 => clusterOf m.core == clusterOf core && m.slice == slice && m.ctx == ctx
  | 4 => m.slice == slice
  | 5 => decide (m.slice < 16)
  | _ => true

/-- The release marks of a table changed. -/
def tblMarks (f : RelMark → RelMark) (t : Tbl RelMark) : Tbl RelMark := tmap t (fun _ m => f m)

/-- The release marks that a warp's threads have read changed. -/
def warpMarks (f : RelMark → RelMark) (w : Warp) : Warp :=
  { w with seen := w.seen.map (fun e => (e.1, f e.2)), bound := w.bound.map (fun b => { b with marks := tblMarks f b.marks }) }

/-- The release marks of a saved context changed. -/
def imageMarks (f : RelMark → RelMark) (i : Image) : Image :=
  { i with teams := i.teams.map (fun t => { t with slots := t.slots.map (fun w => (w.1, w.2.1, warpMarks f w.2.2)) })
           ops := i.ops.map (fun o => { o with mark := o.mark.map f }) }

/-- The release marks that a slice's saved contexts hold changed. -/
def sliceMarks (f : RelMark → RelMark) (x : Slice) : Slice :=
  { x with ctxs := tmap x.ctxs (fun _ c => { c with image := c.image.map (imageMarks f) }) }

/-- Every release mark that the machine holds changed (08 R179, R187): on written bytes, on copies of lines, and on what threads have read,
those of saved contexts among them. -/
def modMarks (f : RelMark → RelMark) (s : State) : State :=
  let core := fun (_ : Nat) (c : Core) => { c with
    pend := c.pend.map (fun e => { e with marks := tblMarks f e.marks })
    clean := tmap c.clean (fun _ x => { x with marks := tblMarks f x.marks })
    warps := tmap c.warps (fun _ w => warpMarks f w) }
  { s with marks := tblMarks f s.marks, l2 := tmap s.l2 (fun _ x => { x with marks := tblMarks f x.marks }), cores := tmap s.cores core,
           ops := tmap s.ops (fun _ o => { o with mark := o.mark.map f }), slices := tmap s.slices (fun _ x => sliceMarks f x) }

/-- A mark of a context's thread whose team is saved: its thread stands on no core. -/
def awayMark (sl ctx : Nat) (m : RelMark) : RelMark :=
  if m.slice = sl ∧ m.ctx = ctx ∧ m.core < 128 then { m with core := m.core + 128 } else m

/-- A scope field's scope: 0 stands for .dv (04 R74). -/
def scopeOf (field : Nat) : Nat := if field = 0 then 5 else field

end Sys2Proof.Machine
end

