-- ==== Sys2Proof/Machine/Flags.lean ====
section
/-!
DEFINITION. Exception counting (05 R110-R116): the only flags the machine has. A core counts an instruction's events at its
retirement, takes the action of a crossed threshold, and ends windows by retirements.
-/
namespace Sys2Proof.Machine

/-- The count state of a class of a context on a core. One that the core has not used yet starts with the context's settings
(05 R112). -/
def excGet (s : State) (core sl ctx cls : Nat) : ExcState :=
  match tfind (getCore s core).exc (ctx * 8 + cls) with
  | some e => e
  | none =>
    let c := getCtx s sl ctx
    { thr := c.thr.getD cls 0, win := c.win.getD cls 0, act := c.act.getD cls 0 }

/-- The count state of a class replaced. -/
def excPut (s : State) (core ctx cls : Nat) (e : ExcState) : State :=
  putCore s core { getCore s core with exc := tset (getCore s core).exc (ctx * 8 + cls) e }

/-- A class is added to a warp's pending threshold traps, in ascending order (05 R114). -/
def addPending (l : List Nat) (cls : Nat) : List Nat :=
  (List.range 8).filter (fun k => k == cls || l.contains k)

/-- n events counted for a class (05 R113): COUNT stops at its maximum, and the first crossing in a window sets FIRED. Says
whether the action is taken. -/
def countOne (e : ExcState) (n : Nat) : ExcState × Bool :=
  let c := min (e.count + n) 0xFFFFFFFF
  let crosses := e.thr != 0 && decide (e.count < e.thr) && decide (e.thr ≤ c) && !e.fired
  ({ e with count := c, fired := e.fired || crosses }, crosses)

/-- The action of a crossed threshold (05 R114): bit 0 traps the warp, bit 1 interrupts the host. -/
def takeAction (s : State) (core slot sl ctx cls : Nat) (act : Nat) : State :=
  let s1 := if bitOf act 0 then
      match getWarp s core slot with
      | none => s
      | some w => if liveLanes w = 0 then s else putWarp s core slot { w with pendThr := addPending w.pendThr cls }
    else s
  if bitOf act 1 then raiseEvent s1 sl 2 ctx core cls 0 0 else s1

/-- n events of one class counted for a context on a core, on behalf of the warp in a slot (05 R111, R113, R114). -/
def countClass (s : State) (core slot sl ctx cls n : Nat) : State :=
  if n = 0 then s
  else
    let e := excGet s core sl ctx cls
    let (e', crosses) := countOne e n
    let s1 := excPut s core ctx cls e'
    if crosses then takeAction s1 core slot sl ctx cls e.act else s1

/-- Every event of a list counted, class by class in ascending order (05 R114). -/
def countEvents (s : State) (core slot sl ctx : Nat) (ev : List Nat) : State :=
  (List.range 8).foldl (fun s cls => countClass s core slot sl ctx cls (ev.filter (· == cls)).length) s

/-- A window that the retirements counted in it have brought to its length ends (05 R113). -/
def endWindow (e : ExcState) : ExcState :=
  if e.win != 0 && decide (e.win * 1024 ≤ e.since) then { e with count := 0, fired := false, since := 0 } else e

/-- A retirement counted in a class's window (05 R113). -/
def tickWindow (e : ExcState) : ExcState := { e with since := e.since + 1 }

/-- One retirement in a class's window (05 R113): the retirement that reaches the window's length ends it. -/
def stepWindow (e : ExcState) : ExcState := endWindow (tickWindow e)

/-- The windows of all classes of a context on a core changed. -/
def modWindows (f : ExcState → ExcState) (s : State) (core sl ctx : Nat) : State :=
  (List.range 8).foldl (fun s cls => excPut s core ctx cls (f (excGet s core sl ctx cls))) s

/-- One retirement of a context on a core in the windows of all classes (05 R113). One that shares its cycle with others is left
to the cycle's end (05 R115). -/
def stepWindows (s : State) (core sl ctx : Nat) : State :=
  match (getCore s core).cycle with
  | none => modWindows stepWindow s core sl ctx
  | some cs => putCore s core { getCore s core with cycle := some (cs ++ [ctx]) }

/-- The EXC register of a class (05 R112). -/
def excReg (e : ExcState) : DWord := BitVec.ofNat 64 e.count

/-- The WIN register of a class (05 R112): ELAPSED above the context's WINDOW. Beyond 24 bits ELAPSED wraps (log 112). -/
def winReg (e : ExcState) (window : Nat) : DWord := BitVec.ofNat 64 (e.since / 1024 % 2 ^ 24 * 2 ^ 24 + window)

/-- The ACT register of a class (05 R112): FIRED above the context's ACTION. -/
def actReg (e : ExcState) (action : Nat) : DWord := BitVec.ofNat 64 (e.fired.toNat * 4 + action)

end Sys2Proof.Machine
end

