-- ==== Sys2Proof/Machine/Operands.lean ====
section
/-!
DEFINITION. Operand forms (03 R44, R52-R58; 04 R71-R77): reading and writing registers, guards, memory addresses, and the checks
of register fields and register words.
-/
namespace Sys2Proof.Machine

/-- A v register's lanes (03 R52). -/
def readV (w : Warp) (r : Nat) : Lanes := tget zeroLanes w.v r

/-- One lane of a v register. -/
def readLane (w : Warp) (r l : Nat) : Word := laneGet (readV w r) l

/-- An s register (04 R71): s0 reads zero. -/
def readS (w : Warp) (r : Nat) : DWord := if r = 0 then 0 else tget 0 w.s r

/-- A predicate register (04 R71): p0 is true in every lane that is present; missing lanes are false. -/
def readP (w : Warp) (r : Nat) : LaneMask := (if r = 0 then BitVec.allOnes 64 else tget 0 w.p r) &&& w.present

/-- An s register written (04 R71): s0 discards. -/
def writeS (w : Warp) (r : Nat) (x : DWord) : Warp :=
  if r = 0 then w else { w with s := tset w.s r x, wtPoison := w.wtPoison.filter (fun k => k != r && k != 128 + r) }

/-- The lanes of an instruction's destination (03 R44): its results in the active set; zero in the guard-false lanes of its path under
.z; the old value elsewhere; zero in missing lanes. -/
def mergeLanes (w : Warp) (active zeroed : LaneMask) (f : Nat → Word) (old : Lanes) : Lanes :=
  laneList (fun l =>
    if !w.present.getLsbD l then 0
    else if active.getLsbD l then f l
    else if zeroed.getLsbD l then 0
    else laneGet old l)

/-- A v register written (03 R44); the words written carry no poison (03 R54). -/
def writeV (w : Warp) (r : Nat) (active zeroed : LaneMask) (f : Nat → Word) : Warp :=
  { w with v := tset w.v r (mergeLanes w active zeroed f (readV w r))
           vPoison := tset w.vPoison r (tget 0 w.vPoison r &&& ~~~(active ||| zeroed)) }

/-- A predicate register written (03 R44, 04 R71): p0 discards. -/
def writeP (w : Warp) (r : Nat) (active zeroed : LaneMask) (f : Nat → Bool) : Warp :=
  if r = 0 then w
  else
    { w with p := tset w.p r (maskOf (fun l =>
               w.present.getLsbD l && (if active.getLsbD l then f l
                 else if zeroed.getLsbD l then false
                 else (readP w r).getLsbD l)))
             wtPoison := w.wtPoison.filter (fun k => k != 64 + r && k != 96 + r) }

/-- The lanes where a guard holds (04 R71, R77). -/
def guardLanes (w : Warp) (g : Nat) (neg : Bool) : LaneMask :=
  if neg then ~~~(if g = 0 then BitVec.allOnes 64 else tget 0 w.p g) else if g = 0 then BitVec.allOnes 64 else tget 0 w.p g

/-- The active set of a vector instruction with an arithmetic prefix (04 R77, 13 R298). -/
def activeA (w : Warp) (q : Option APre) : LaneMask :=
  match q with
  | none => w.path
  | some p => w.path &&& guardLanes w p.guard.toNat p.neg

/-- The active set of a vector instruction with a memory prefix (04 R77). -/
def activeM (w : Warp) (q : Option MPre) : LaneMask :=
  match q with
  | none => w.path
  | some p => w.path &&& guardLanes w p.guard.toNat p.neg

/-- The lanes that a zeroing prefix clears (03 R44): in the path and guarded off. -/
def zeroedA (w : Warp) (q : Option APre) : LaneMask :=
  match q with
  | none => 0
  | some p => if p.zero then w.path &&& ~~~activeA w q else 0

/-- The fourth operand's register (04 R77): vd without a prefix, vc with one. -/
def fourth (q : Option APre) (d : Nat) : Nat :=
  match q with
  | none => d
  | some p => p.vc.toNat

/-- The instruction's length in bytes (03 R43): 8 with a prefix. -/
def lenOf {α : Type} (q : Option α) : Nat := if q.isSome then 8 else 4

/-- The guard predicates that a prefix reads. -/
def guardRegA (q : Option APre) : List Nat :=
  match q with
  | none => []
  | some p => [p.guard.toNat]

/-- The guard predicates that a memory prefix reads. -/
def guardRegM (q : Option MPre) : List Nat :=
  match q with
  | none => []
  | some p => [p.guard.toNat]

/-- The lanes of some v registers that hold poisoned words (03 R54). -/
def poisonedV (w : Warp) (rs : List Nat) : LaneMask := rs.foldl (fun m r => m ||| tget 0 w.vPoison r) 0

/-- NMODE as an operand and as a word of the warp table (03 R53, R54). -/
def nmodeWord : Nat := 257

/-- The low word of WSW, as an operand both of its words (03 R53, R54). -/
def wswWord : Nat := 258

/-- The word of the four outstanding-operation counters (03 R53, R54). -/
def ocntWord : Nat := 260

/-- The word of the allotments (03 R53, R54). -/
def allotWord : Nat := 261

/-- The low word of the join PC of rejoin register j in a lane; the high word is the next (03 R53, R54). -/
def joinWord (j l : Nat) : Nat := 1024 + (j * 64 + l) * 2

/-- The warp-table words of an s operand (03 R54): a register's low word has its number and its high word 128 more; 128 + r as an
operand is the high word of r alone and 192 + r the low one. s0 is no word. From 256 up an operand is one of the entry's other words,
and `wswWord` both of its own. -/
def tableWords (n : Nat) : List Nat :=
  if n = wswWord then [n, n + 1]
  else if 256 < n then [n]
  else if n % 64 = 0 then [] else if n < 64 then [n, 128 + n] else if n < 192 then [n] else [n - 192]

/-- The words of the warp table that hold s operands. -/
def poisonedS (w : Warp) (ss : List Nat) : Bool := ss.any (fun r => (tableWords r).any w.wtPoison.contains)

/-- The lanes of a word of p register r, if it is poisoned (03 R54): with high the word of lanes 32 to 63, else that of lanes 0 to 31. -/
def poisonedHalf (w : Warp) (r : Nat) (high : Bool) : LaneMask :=
  if r = 0 then 0
  else if high then if w.wtPoison.contains (96 + r) then ~~~lanesBelow 32 else 0
  else if w.wtPoison.contains (64 + r) then lanesBelow 32 else 0

/-- The lanes whose word of a predicate operand is poisoned (03 R44, R54). Below 32 an operand is a p register that the path's lanes read;
32 + r is the word of lanes 0 to 31 of p register r, and 64 + r that of lanes 32 to 63, read as an old destination. -/
def poisonedPred (w : Warp) (r : Nat) : LaneMask :=
  if r < 32 then (poisonedHalf w r false ||| poisonedHalf w r true) &&& w.path
  else poisonedHalf w (r % 32) (decide (64 ≤ r)) &&& w.present

/-- The lanes whose word of some predicate operands is poisoned (03 R54). -/
def poisonedP (w : Warp) (ps : List Nat) : LaneMask := ps.foldl (fun m r => m ||| poisonedPred w r) 0

/-- The lanes whose word of the warp table an instruction reads is poisoned (03 R54): every lane of the path for a word of the whole
warp, and for predicates the lanes that the word holds. -/
def tableLanes (w : Warp) (ss ps : List Nat) : LaneMask := if poisonedS w ss then w.path else poisonedP w ps

/-- A warp-table word that an instruction reads is poisoned (03 R54). -/
def poisonedTable (w : Warp) (ss ps : List Nat) : Bool := poisonedS w ss || poisonedP w ps != 0

/-- Registers r to r + n − 1 start at a multiple of n and lie below the allotment (03 R55). -/
def groupOk (w : Warp) (r n : Nat) : Bool := r % n == 0 && decide (r + n ≤ w.areg)

/-- The registers of a group. -/
def groupRegs (d n : Nat) : List Nat := (List.range n).map (fun i => d + i)

/-- An address of the VM format (04 R73): sub 0 zero-extends the offset register, 1 sign-extends it, 2 scales it by the access
size. -/
def vmAddr (w : Warp) (b o sub size : Nat) (off : DWord) (l : Nat) : DWord :=
  let x := readLane w o l
  let t := match sub with
    | 0 => x.setWidth 64
    | 1 => x.signExtend 64
    | _ => x.setWidth 64 * BitVec.ofNat 64 size
  readS w b + t + off

/-- The byte offset of a memory prefix (04 R74). -/
def offOf (q : Option MPre) : DWord :=
  match q with
  | none => 0
  | some p => p.off.signExtend 64

/-- The scope of a memory prefix (04 R74): .dv without one. -/
def scopeM (q : Option MPre) : Nat :=
  match q with
  | none => 5
  | some p => scopeOf p.scope.toNat

/-- The order of a memory prefix (04 R74): 0 rlx, 1 acq, 2 rel, 3 ar. -/
def orderM (q : Option MPre) : Nat :=
  match q with
  | none => 0
  | some p => p.order.toNat

/-- The cache hint of a memory prefix (04 R74): 0 normal, 1 stream, 2 keep, 3 no-allocate. -/
def hintM (q : Option MPre) : Nat :=
  match q with
  | none => 0
  | some p => p.hint.toNat

/-- The segment width of a VX instruction (02 R33, 12 R294): 16, 32, 64, or for code 3 the grant, which COMPAT16 makes 16. -/
def segWidth (w : Warp) (t : Team) (code : Nat) : Nat :=
  match code with
  | 0 => 16
  | 1 => 32
  | 2 => 64
  | _ => if bitOf t.header 25 then 16 else w.grant

end Sys2Proof.Machine
end

