-- ==== Sys2Proof/Machine/Ops.lean ====
section
/-!
DEFINITION. The operations that meanings share: the warp whose turn it is, retirement (03 R45), taking a trap or a fault and
returning from a handler (10 R220-R230), the accesses of loads, stores and atomics (08 R176, 16 R396), and the issue of
asynchronous operations (07 R164, 10 R235).
-/
namespace Sys2Proof.Machine

/-- What a meaning answers. -/
abbrev Out := Host.Outcome State Fault Refusal

/-- The warp whose turn it is, with its place and its team. -/
structure Cx where
  s : State
  core : Nat
  slot : Nat
  w : Warp
  t : Team

/-- The warp that holds the turn has a running path; otherwise there is nothing to run the instruction (Fault.noWarp). -/
def withCx (s : State) (k : Cx → Out) : Out :=
  match getWarp s s.cur.1 s.cur.2 with
  | none => .fault .noWarp
  | some w => if w.path = 0 then .fault .noWarp else k { s := s, core := s.cur.1, slot := s.cur.2, w := w, t := getTeam s s.cur.1 w.team }

/-- The warp as it stands once its instruction is counted as retired (14 R348, 02 R29, 10 R245). -/
def bump (w : Warp) : Warp :=
  { w with retired := w.retired + 1, pathRet := w.pathRet + 1, parkedOn := none, dispatch := none, checked := false, stepDue := w.stepDue || (w.step && !w.tm) }

/-- The machine after a retirement: the warp, its events, what else the instruction does, and the windows (05 R115). The retirement of an
SWRITE to WINn is the first that counts in the window it starts (log 112). -/
def retireWith (c : Cx) (s : State) (w : Warp) (ev : Events) (post : State → State) : State :=
  stepWindows (post (countEvents (putWarp s c.core c.slot w) c.core c.slot c.w.slice c.w.ctx ev)) c.core c.w.slice c.w.ctx

/-- An instruction that changes only its warp retires (03 R45). -/
def Cx.retire (c : Cx) (w : Warp) (ev : Events) : Out := .next (retireWith c c.s w ev id)

/-- An instruction that changes its warp and other state retires (03 R45). -/
def Cx.retireIn (c : Cx) (s : State) (w : Warp) : Out := .next (retireWith c s w [] id)

/-- An instruction that cannot retire now stalls (02 R29): nothing changes. -/
def Cx.stall (c : Cx) : Out := .next c.s

/-- A cause word (10 R221). -/
def causeWord (code sub info : Nat) (fault converted : Bool) : DWord :=
  BitVec.ofNat 64 (code + sub % 2 ^ 16 * 2 ^ 16 + info % 2 ^ 16 * 2 ^ 32 + converted.toNat * 2 ^ 62 + fault.toNat * 2 ^ 63)

/-- An address sign-extended from 57 bits (03 R47). -/
def signed57 (a : DWord) : DWord := (a.setWidth 57).signExtend 64

/-- The trap record of a warp (03 R47): TRAPPC is sign-extended from 57 bits, and lanes at and above the grant read zero. -/
def recordTrap (w : Warp) (pc cause addr : DWord) (lanes : LaneMask) : Warp :=
  { w with trapPc := signed57 pc, trapCause := cause, trapAddr := addr, trapLanes := lanes &&& lanesBelow w.grant }

/-- An operation's engine (07 R158; 06 R117). -/
def opUnit (o : AsyncOp) : EngineRef :=
  match o.cls with
  | 0 => .copy (granuleOf o.core * 2 + clusterOf o.core % 2)
  | 1 => .me (clusterOf o.core)
  | 2 => .core o.core
  | _ => .coll (dieOf o.core)

/-- The engines whose operations surfaced as faults at waits of a context's warps (07 R167): their records name those. A gather unit
writes none of its own for them (10 R235). -/
def surfacedUnits (s : State) (sl ctx : Nat) : List EngineRef :=
  (coresOf s sl).flatMap (fun n => (getCore s n).warps.filterMap (fun e =>
    if e.2.slice == sl && e.2.ctx == ctx && e.2.faulted then (e.2.concerned.filter (fun f => f.cls != 2)).map (fun f => f.unit) else none))

/-- The units that serve a context now (10 R230): cores whose bank context it owns, then the engines with its operations, a
failed one that awaits its record among them (07 R167, 10 R235). -/
def servingUnits (s : State) (sl ctx : Nat) : List EngineRef :=
  let cores := (coresOf s sl).filter (fun n =>
    (getCore s n).bank0.owner == some ctx || (getCore s n).bank1.owner == some ctx)
  let engines := s.ops.filterMap (fun o =>
    if o.2.slice == sl && o.2.ctx == ctx && o.2.cls != 2 && (!o.2.finished || o.2.dropped) then some (opUnit o.2) else none)
  cores.map EngineRef.core ++ (engines ++ surfacedUnits s sl ctx).eraseDups

/-- A stop in progress takes in a unit that its context reaches only after the line has risen (10 R230, R231), unless it has stopped
already. -/
def joinStop (s : State) (sl ctx : Nat) (u : EngineRef) : State :=
  let x := getCtx s sl ctx
  match x.stop with
  | none => s
  | some st =>
    if st.closed || st.units.contains u || st.ended.contains u then s
    else putCtx s sl ctx { x with stop := some { st with units := st.units ++ [u] } }

/-- The stop line of a context raised with a first cause (10 R230, R236); a line already raised keeps its own. -/
def raiseStop (s : State) (sl ctx : Nat) (cause : DWord) : State :=
  let x := getCtx s sl ctx
  match x.stop with
  | some _ => s
  | none => putCtx s sl ctx { x with stop := some { cause := cause, units := servingUnits s sl ctx, closed := false } }

/-- A fault taken by the warp (10 R220, R230; 03 R46, R47): the record is written, the instruction has no effect, and the context's
stop line rises. The warp keeps the sequence number of the instruction (03 R43, 10 R236), or takes the next one where it has none. ia is
the address of a stage-2 failure, which the host is told (07 R172). -/
def takeFault (c : Cx) (code sub info : Nat) (converted : Bool) (lanes : LaneMask) (addr : DWord) (ia : Option Nat) : Out :=
  let cause := causeWord code sub info true converted
  let w := { recordTrap c.w (pathPc c.w) cause addr lanes with
    faulted := true, dispatch := some (c.w.dispatch.getD (getCore c.s c.core).dispatches),
    doublePc := if code = 0x29 then c.w.trapPc else 0 }
  let s2 := raiseStop (putWarp c.s c.core c.slot w) c.w.slice c.w.ctx cause
  .next (match ia with
    | none => s2
    | some a => reportStage2 s2 c.w.slice c.w.ctx a)

/-- A fault of the class with no address (10 R220). -/
def Cx.fault (c : Cx) (code sub info : Nat) (lanes : LaneMask) : Out := takeFault c code sub info false lanes 0 none

/-- An illegal operand (10 R222): SUB 0 register beyond an allotment, 1 parameter block, 2 descriptor, 3 another limit. -/
def Cx.illegalOperand (c : Cx) (sub : Nat) (lanes : LaneMask) : Out := c.fault 0x21 sub 0 lanes

/-- The warp in its handler (10 R224): the record written, TM set, and the handler path at the handler's address. -/
def enterHandler (w : Warp) (pc cause : DWord) (lanes path : LaneMask) (handler : DWord) : Warp :=
  let w1 := { recordTrap w pc cause 0 lanes with tm := true, handlers := path, path := path, pathRet := 0, dispatch := none, checked := false, bound := [] }
  setPcs (cleanPcs w1 path) path handler

/-- An instruction trap (10 R224, R226, R229): the handler runs; under TM it is a double trap; with no handler it is a converted
fault. post is what the trap does in every case, such as DRD.trp's count (log 112). -/
def takeTrap (c : Cx) (code info : Nat) (lanes : LaneMask) (post : State → State) : Out :=
  let c' := { c with s := post c.s, w := (getWarp (post c.s) c.core c.slot).getD c.w }
  if c.w.tm then takeFault c' 0x29 0 code false lanes 0 none
  else if c.w.trapBase = 0 then takeFault c' code 0 info true lanes 0 none
  else .next (putWarp c'.s c.core c.slot
    (enterHandler c'.w (pathPc c.w) (causeWord code 0 info false false) lanes c.w.path c.w.trapBase))

/-- TRET's effect on its warp (10 R227, 14 R359): the lanes that entered the handler and have not exited run on at the resume
address, out of any block, and the next path is chosen among all lanes. -/
def leaveHandler (w : Warp) (resume : DWord) : Warp :=
  let back := w.handlers &&& ~~~w.exited
  let w1 := setPcs (cleanPcs { w with blocks := tkeep w.blocks (fun l _ => !back.getLsbD l), tm := false, handlers := 0, inQuiesce := false } back)
    back resume
  selectLowest w1

/-- The lanes that keep the old value of a destination, which is then a source there (03 R44). -/
def keptLanes (w : Warp) (act zeroed : LaneMask) : LaneMask := w.present &&& ~~~(act ||| zeroed)

/-- The lanes in which a vector instruction reads a poisoned word (03 R44, R54; log 34). -/
def poisonedLanes (w : Warp) (act zeroed : LaneMask) (srcV dst : List Nat) : LaneMask :=
  (poisonedV w srcV &&& act) ||| (poisonedV w dst &&& keptLanes w act zeroed)

/-- The checks of a vector instruction's register fields and words, in this order: the allotment (03 R55), poisoned guard
predicates, poisoned words of the sources in active lanes, and of the destinations dst in lanes that keep their old value
(03 R44, R54). -/
def Cx.vchecks (c : Cx) (act zeroed : LaneMask) (dst : List Nat) (groups : List (Nat × Nat)) (srcV srcS srcP : List Nat) (k : Out) : Out :=
  if !groups.all (fun g => groupOk c.w g.1 g.2) then c.illegalOperand 0 act
  else if poisonedTable c.w srcS srcP then c.fault 0x26 2 0 (tableLanes c.w srcS srcP)
  else if poisonedLanes c.w act zeroed srcV dst != 0 then c.fault 0x26 0 0 (poisonedLanes c.w act zeroed srcV dst)
  else k

/-- The words of an old predicate that an instruction reads where some present lane of theirs keeps it (03 R44, R54). -/
def keptPredicate (w : Warp) (act zeroed : LaneMask) (d : Nat) : List Nat :=
  let kept := keptLanes w act zeroed
  (if kept &&& lanesBelow 32 = 0 then [] else [32 + d]) ++ (if kept &&& ~~~lanesBelow 32 = 0 then [] else [64 + d])

/-- The words a uniform instruction reads from the warp table carry no poison (03 R54). -/
def Cx.uchecks (c : Cx) (srcS : List Nat) (k : Out) : Out :=
  if poisonedTable c.w srcS [] then c.fault 0x26 2 0 (tableLanes c.w srcS []) else k

/-- A vector operation on the lanes of the active set (15 R371), which reads some words of the warp table: f gives a lane's result and
events from its sources. -/
def vectorWith (tab : List Nat) (q : Option APre) (d : Nat) (srcs : List Nat) (f : Cx → Nat → Nat × Events) (s : State) : Out :=
  withCx s fun c =>
    let act := activeA c.w q
    c.vchecks act (zeroedA c.w q) [d] ((d :: srcs).map (fun r => (r, 1))) srcs tab (guardRegA q)
      (c.retire (advance (lenOf q) (writeV (bump c.w) d act (zeroedA c.w q) (fun l => BitVec.ofNat 32 (f c l).1)))
        ((lanesOf act).flatMap (fun l => (f c l).2)))

/-- A vector operation that rounds or saturates as NMODE says (05 R103), and so reads it. -/
def vectorOp (q : Option APre) (d : Nat) (srcs : List Nat) (f : Cx → Nat → Nat × Events) (s : State) : Out :=
  vectorWith [nmodeWord] q d srcs f s

/-- A vector operation that reads no mode and counts no event. -/
def vectorPure (q : Option APre) (d : Nat) (srcs : List Nat) (f : Cx → Nat → Word) (s : State) : Out :=
  vectorWith [] q d srcs (fun c l => ((f c l).toNat, [])) s

/-- A vector operation that writes a predicate (15 R383). -/
def predicateOp (q : Option APre) (d : Nat) (srcV srcP : List Nat) (f : Cx → Nat → Bool) (s : State) : Out :=
  withCx s fun c =>
    let act := activeA c.w q
    c.vchecks act 0 [] (srcV.map (fun r => (r, 1))) srcV [] (guardRegA q ++ keptPredicate c.w act (zeroedA c.w q) d ++ srcP)
      (c.retire (advance (lenOf q) (writeP (bump c.w) d act (zeroedA c.w q) (f c))) [])

/-- A uniform operation on s registers (15 R360). -/
def uniformOp (d : Nat) (srcs : List Nat) (f : Cx → DWord) (s : State) : Out :=
  withCx s fun c => c.uchecks srcs (c.retire (advance 4 (writeS (bump c.w) d (f c))) [])

/-- Where the rows of 16 R396 and the rule of 03 R47 place a lane's failure: non-canonical, misaligned, translation, permission, poison,
be it of a walk or of data; stage 1 ahead of stage 2. tag is the poisoned line that was consumed, and whether its integrity tag failed
(11 R257, R271). -/
structure LaneFail where
  rank : Nat
  code : Nat
  sub : Nat
  addr : DWord
  ia : Option Nat
  tag : Option (Nat × Bool) := none

/-- The failure of a lane's translation. -/
def failOfTr (acc : Acc) (a : DWord) (e : TrErr) : LaneFail :=
  let (code, sub) := trCause acc e
  { rank := if code = 0x25 then 8 else if code = 0x23 then 2 + sub % 2 else 4 + sub % 2, code := code, sub := sub, addr := a,
    ia := trIa e, tag := trTag e }

/-- The failure of an access that consumes a poisoned line (10 R237; 11 R271). -/
def poisonFail (s : State) (rank sub : Nat) (a : DWord) (k : Nat) : LaneFail :=
  { rank := rank, code := 0x25, sub := sub, addr := a, ia := none, tag := consumed s k }

/-- A lane's address checked and translated (16 R396): its memory key, its failure, or none while the access must wait. -/
def checkLane (s : State) (unit sl ctx : Nat) (a : DWord) (size : Nat) (acc : Acc) : Except (Option LaneFail) (Nat × State) :=
  if !canonical a then .error (some { rank := 0, code := 0x23, sub := 4 + acc.code * 16, addr := a, ia := none })
  else if a.toNat % size != 0 then .error (some { rank := 1, code := 0x22, sub := 0, addr := a, ia := none })
  else
    match translate s unit sl ctx a acc with
    | .ok r => .ok r
    | .error .waits => .error none
    | .error (.fail st k ia) => .error (some (failOfTr acc a (.fail st k ia)))
    | .error (.poison tag) => .error (some (failOfTr acc a (.poison tag)))

/-- The accesses of an instruction checked lane by lane: memory keys, failures, whether one must wait, and the state with its
TLBs and dirty bits. -/
structure Checked where
  keys : List (Nat × Nat)
  fails : List (Nat × LaneFail)
  waits : Bool
  s : State

/-- Every lane's access checked, in ascending lane order (16 R396). -/
def checkLanes (unit sl ctx : Nat) (size : Nat) (acc : Acc) : List (Nat × DWord) → State → Checked
  | [], s => { keys := [], fails := [], waits := false, s := s }
  | (l, a) :: t, s =>
    match checkLane s unit sl ctx a size acc with
    | .ok (k, s1) => let r := checkLanes unit sl ctx size acc t s1; { r with keys := (l, k) :: r.keys }
    | .error none => let r := checkLanes unit sl ctx size acc t s; { r with waits := true }
    | .error (some f) => let r := checkLanes unit sl ctx size acc t s; { r with fails := (l, f) :: r.fails }

/-- The lanes of a list. -/
def maskOfList (ls : List Nat) : LaneMask := maskOf (fun l => ls.contains l)

/-- The fault that lanes' failures give (03 R47, 16 R396): the cause of the lowest rank, its lanes, and SUB and address of the lowest
of them. A uniform access names the path's lanes (15 R369). -/
def Cx.laneFault (c : Cx) (uniform : Bool) (fs : List (Nat × LaneFail)) : Out :=
  let best := (fs.map (fun f => f.2.rank)).foldl min 100
  match fs.filter (fun f => f.2.rank == best) with
  | [] => c.stall
  | (l, f) :: t =>
    takeFault { c with s := tellTag c.s c.w.slice f.tag } f.code f.sub 0 false
      (if uniform then c.w.path else maskOfList (l :: t.map (fun g => g.1))) f.addr f.ia

/-- The origin of a warp's stores (03 R50). -/
def Cx.origin (c : Cx) : Origin :=
  { ctx := c.w.ctx, team := c.t.number, slot := c.slot, gen := slotGen c.s c.core c.slot, pc := pathPc c.w, slice := c.w.slice }

/-- The mark of a thread's release at a scope (08 R187). -/
def Cx.mark (c : Cx) (scope lane : Nat) : RelMark :=
  { scope := scope, core := c.core, slot := c.slot, gen := slotGen c.s c.core c.slot, lane := lane, slice := c.w.slice, ctx := c.w.ctx }

/-- The narrowest of the last release fences that the threads of some lanes have retired, with its lane (08 R175, R184): the one whose
scope can fall short. -/
def narrowestFence (w : Warp) (lanes : LaneMask) : Option (Nat × Nat) :=
  (w.relFence.filter (fun e => lanes.getLsbD e.1)).foldl (fun r e => match r with
    | none => some e
    | some b => if e.2 < b.2 then some e else r) none

/-- The mark of a write of some threads (08 R184, R187): their instruction's own release, else their last release fence. -/
def Cx.releaseMark (c : Cx) (own : Option Nat) (lanes : LaneMask) : Option RelMark :=
  match own with
  | some x => some (c.mark x ((lowest lanes).getD 0))
  | none => (narrowestFence c.w lanes).map (fun e => c.mark e.2 e.1)

/-- The marks of bytes written with a release mark, or none. -/
def marksOf (m : Option RelMark) (k n : Nat) : Tbl RelMark :=
  match m with
  | none => []
  | some r => (List.range n).map (fun i => (k + i, r))

/-- The release fences of its core that a store of some threads is behind (08 R182; log 117). -/
def Cx.fencesBefore (c : Cx) (lanes : LaneMask) : Nat :=
  if (narrowestFence c.w lanes).isSome then (getCore c.s c.core).fences else 0

/-- One store of a core enters its store buffer (03 R49); a release keeps its place behind older stores (08 R178, R182). -/
def storeBytes (s : State) (c : Cx) (k : Nat) (bs : List Byte) (lanes : LaneMask) (own : Option Nat) (hint : Nat) : State :=
  let e : PStore := { line := lineOf k, bytes := byteTbl k bs, marks := marksOf (c.releaseMark own lanes) k bs.length,
                      release := own.isSome, through := decide (4 ≤ own.getD 0), hint := hint, inL1 := false,
                      origin := c.origin, multi := false, epoch := (getCore s c.core).fences, after := c.fencesBefore lanes }
  putCore s c.core (pushStore (getCore s c.core) e)

/-- The mismatch marks of an acquire (08 R187): each mark read whose writer and reader do not both lie in the other's scope sets
SCOPEMIS on the side whose scope falls short. -/
def noteMarks (c : Cx) (scope : Nat) (ms : List RelMark) (s : State) : State :=
  let gen := slotGen c.s c.core c.slot
  let me : RelMark := c.mark scope 0
  ms.foldl (fun s m =>
    let s1 := if scopeIncludes scope c.core c.slot gen c.w.slice c.w.ctx m then s
      else match getWarp s c.core c.slot with
        | none => s
        | some w => putWarp s c.core c.slot { w with scopemis := true }
    if scopeIncludes m.scope m.core m.slot m.gen m.slice m.ctx me then s1
    else match getWarp s1 m.core m.slot with
      | none => s1
      | some w => if slotGen s1 m.core m.slot = m.gen then putWarp s1 m.core m.slot { w with scopemis := true } else s1) s

/-- Marks that a relaxed read met, kept for a later acquire fence of the lane's thread (08 R184, R187). -/
def keepSeen (w : Warp) (ms : List (Nat × RelMark)) : Warp :=
  { w with seen := ms.foldl (fun t m => if t.contains m then t else t ++ [m]) w.seen }

/-- The four retired-count places of a warp, one changed. -/
def addCount (w : Warp) (cls : Nat) : Warp :=
  { w with counts := setAt w.counts cls (w.counts.getD cls 0 + 1)
           issues := setAt w.issues cls ((w.issues.getD cls 0 + 1) % 2 ^ 32) }

/-- The issue position of a warp's next operation of a class (10 R235). -/
def Cx.position (c : Cx) (cls : Nat) : DWord :=
  BitVec.ofNat 64 (c.w.issues.getD cls 0 * 2 ^ 32 + c.core * 2 ^ 25 + c.slot * 2 ^ 19 + cls * 2 ^ 16 + slotGen c.s c.core c.slot % 2 ^ 16)

/-- A release fence of a core's threads (08 R182; log 117). -/
def noteFence (s : State) (core : Nat) : State := putCore s core { getCore s core with fences := (getCore s core).fences + 1 }

/-- An asynchronous operation issued at its instruction's retirement (07 R157, R158, R164): it enters its engine, which a stop in progress
takes in (10 R231), and is counted; its writes follow its threads' older stores as if behind a release fence (08 R188). -/
def Cx.issue (c : Cx) (cls : Nat) (kind : OpKind) (lanes : LaneMask) (tag : Option Nat) (prio len : Nat) (w : Warp) (s : State) : Out :=
  let o : AsyncOp := { cls := cls, slice := c.w.slice, ctx := c.w.ctx, core := c.core, bank := c.w.bank, team := c.w.team,
                       warps := [(c.slot, slotGen c.s c.core c.slot)], threads := [(c.slot, lanes)], mark := c.releaseMark none lanes, issue := c.w.issues.getD cls 0, pos := c.position cls,
                       kind := kind, nmode := c.w.nmode, origin := c.origin, tag := tag, accept := s.nextOp, prio := prio,
                       suspended := cls == 1 && (getCtx s c.w.slice c.w.ctx).state == 4, fence := (getCore s c.core).fences + 1 }
  let s1 := noteFence { s with ops := tset s.ops s.nextOp o, nextOp := s.nextOp + 1 } c.core
  c.retireIn (if cls = 2 then s1 else joinStop s1 c.w.slice c.w.ctx (opUnit o)) (advance len (addCount (bump w) cls))

/-- A tag lies in the team's range (07 R166). -/
def tagOk (t : Team) (tag : Nat) : Bool := decide (t.tagBase ≤ tag ∧ tag < t.tagBase + t.tagCount)

/-- The tags of a team's range (07 R166). -/
def tagRange (t : Team) : DWord := BitVec.ofNat 64 ((2 ^ t.tagCount - 1) * 2 ^ t.tagBase)

/-- A descriptor of the context's table (07 R153). -/
def Cx.desc (c : Cx) (td : Nat) : Desc := tget 0 (getCtx c.s c.w.slice c.w.ctx).td td

/-- A descriptor of the context's table replaced (07 R153). -/
def putDesc (s : State) (sl ctx td : Nat) (d : Desc) : State :=
  let x := getCtx s sl ctx
  putCtx s sl ctx { x with td := if d = 0 then tdel x.td td else tset x.td td d }

end Sys2Proof.Machine
end

