-- ==== Sys2Proof/Machine/Append.lean ====
section
/-!
DEFINITION. Ordered append (09 R215; 14 R338, R339) and the mailboxes of a resident grid (09 R210-R212; 14 R331, R332).
-/
namespace Sys2Proof.Machine

/-- The grid of the running warp's team. -/
def Cx.grid (c : Cx) : Option Grid := tfind (getSlice c.s c.w.slice).grids c.t.grid

/-- A grid of a slice replaced. -/
def putGrid (s : State) (sl g : Nat) (x : Grid) : State :=
  putSlice s sl { getSlice s sl with grids := tset (getSlice s sl).grids g x }

/-- Every team earlier in launch order has claimed or declined on a counter (09 R215). -/
def turnReached (g : Grid) (ctr order : Nat) : Bool := (List.range order).all (fun i => g.claims.contains (ctr, i))

/-- A team's claim or decline on a counter recorded (09 R215). -/
def noteClaim (g : Grid) (ctr order : Nat) : Grid := { g with claims := g.claims ++ [(ctr, order)] }

/-- The team that runs has claimed or declined on a counter. -/
def Cx.noteTeam (c : Cx) (ctr : Nat) : State := putTeam c.s c.core c.w.team { c.t with claimed := c.t.claimed ++ [ctr] }

/-- The team takes part in ordered append and has its claim on a counter left (14 R339). -/
def Cx.mayClaim (c : Cx) (ctr : Nat) : Bool := !c.t.spawned && !c.t.claimed.contains ctr

/-- OAPP (14 R339). -/
def execOapp (d k : BitVec 6) (n : BitVec 4) (s : State) : Out :=
  withCx s fun c => c.uchecks [k.toNat]
    (match c.grid with
      | none => c.illegalOperand 3 c.w.path
      | some g =>
        if !c.mayClaim n.toNat then c.illegalOperand 3 c.w.path
        else if !turnReached g n.toNat c.t.order then c.stall
        else
          let v := tget 0 g.counters n.toNat
          let g1 := noteClaim { g with counters := tset g.counters n.toNat (v + readS c.w k.toNat) } n.toNat c.t.order
          c.retireIn (putGrid (c.noteTeam n.toNat) c.w.slice c.t.grid g1) (advance 4 (writeS (bump c.w) d.toNat v)))

/-- ODECL (14 R339). -/
def execOdecl (n : BitVec 4) (s : State) : Out :=
  withCx s fun c =>
    match c.grid with
    | none => c.illegalOperand 3 c.w.path
    | some g =>
      if !c.mayClaim n.toNat then c.illegalOperand 3 c.w.path
      else c.retireIn (putGrid (c.noteTeam n.toNat) c.w.slice c.t.grid (noteClaim g n.toNat c.t.order)) (advance 4 (bump c.w))

/-- A resident grid owns a mailbox (09 R210): the one that launched it and those of its mask. -/
def ownsMailbox (g : Grid) (m : Nat) : Bool := g.resident && (g.mbox == m || g.resMask.getLsbD m)

/-- The grid of the running team, if it owns a mailbox (14 R332). -/
def Cx.owner (c : Cx) (m : Nat) : Option Grid := c.grid.filter (fun g => ownsMailbox g m)

/-- The messages of a mailbox of a grid. -/
def msgsOf (g : Grid) (m : Nat) : MsgCount := tget {} g.msgs m

/-- MBXWAIT (14 R332). -/
def execMbxwait (m : BitVec 6) (s : State) : Out :=
  withCx s fun c =>
    match c.owner m.toNat with
    | none => c.illegalOperand 3 c.w.path
    | some g =>
      if (msgsOf g m.toNat).popped < (msgsOf g m.toNat).delivered then c.retire (advance 4 (bump c.w)) [] else c.stall

/-- A held record of a mailbox that has completed (09 R206). -/
def finishHeld (s : State) (sl m seq status detail : Nat) : State :=
  let x := getSlice s sl
  let b := tget {} x.mboxes m
  putSlice s sl { x with mboxes := tset x.mboxes m { b with held := b.held.map (fun h =>
    if h.seq = seq then { h with done := true, status := status, detail := detail } else h) } }

/-- The address of the oldest message of a mailbox that waits (14 R332). -/
def messageAddr (g : Grid) (m : Nat) : DWord :=
  g.msgArea + BitVec.ofNat 64 (m * 2048 + (msgsOf g m).popped % 16 * 128)

/-- A pop (14 R332): the message's record is complete. -/
def popMessage (s : State) (sl grid m : Nat) (g : Grid) : State :=
  let k := msgsOf g m
  let s1 := putGrid s sl grid { g with msgs := tset g.msgs m { k with popped := k.popped + 1, waiting := k.waiting.drop 1 } }
  match k.waiting with
  | [] => s1
  | seq :: _ => finishHeld s1 sl m seq 0 0

/-- MBXPOP (14 R332): an acquire at .sl. -/
def execMbxpop (d m : BitVec 6) (s : State) : Out :=
  withCx s fun c =>
    match c.owner m.toNat with
    | none => c.illegalOperand 3 c.w.path
    | some g =>
      if (msgsOf g m.toNat).delivered ≤ (msgsOf g m.toNat).popped then c.retire (advance 4 (writeS (bump c.w) d.toNat 0)) []
      else c.retireIn (acquireCopies (popMessage c.s c.w.slice c.t.grid m.toNat g) c.core c.w.slice 4)
        (advance 4 (writeS (bump c.w) d.toNat (messageAddr g m.toNat)))

end Sys2Proof.Machine
end

