-- ==== Sys2Proof/Machine/Tensors.lean ====
section
/-!
DEFINITION. Tensor descriptors (07 R154-R156), the memory accesses of engines (07 R158, R172; 08 R188, R189; 10 R237), and the end of
an asynchronous operation (07 R164-R167).
-/
namespace Sys2Proof.Machine

/-- A field of a descriptor (07 R154). -/
def dfield (d : Desc) (hi lo : Nat) : Nat := bits d.toNat hi lo

/-- NDIM (07 R154). -/
def descNdim (d : Desc) : Nat := dfield d 359 357

/-- FMT (07 R154). -/
def descFmt (d : Desc) : Fmt := (Fmt.ofCode (dfield d 356 352)).getD .f32

/-- SFMT (07 R154): 0 none, 1 E8M0, 2 BF16. -/
def descSfmt (d : Desc) : Nat := dfield d 363 360

/-- GS (07 R154). -/
def descGs (d : Desc) : Nat := dfield d 371 364

/-- The extent field of a dimension (07 R154). -/
def descField (d : Desc) (i : Nat) : Nat := dfield d (223 + 32 * i) (192 + 32 * i)

/-- The extent of a dimension; one that the descriptor does not have counts as 1 (07 R159). -/
def descExt (d : Desc) (i : Nat) : Nat := if i < descNdim d then descField d i else 1

/-- The stride field of dimensions 1 to 4 (07 R154). -/
def descStrideBits (d : Desc) (i : Nat) : Nat := dfield d (383 + 32 * i) (352 + 32 * i)

/-- The stride of a dimension (07 R154): 1 for dimension 0. -/
def descStride (d : Desc) (i : Nat) : Int := if i = 0 then 1 else signedNat 32 (descStrideBits d i)

/-- BASE, SCALEBASE and METABASE (07 R154). -/
def descBase (d : Desc) : DWord := d.extractLsb' 0 64

/-- SCALEBASE (07 R154). -/
def descScale (d : Desc) : DWord := d.extractLsb' 64 64

/-- METABASE (07 R154). -/
def descMeta (d : Desc) : DWord := d.extractLsb' 128 64

/-- I4 and I3 share 32-bit words (05 R96): elements of a word, none for the other formats. -/
def Fmt.packed : Fmt → Option Nat
  | .i4 => some 8
  | .i3 => some 10
  | _ => none

/-- The format is one of E4M3, E5M2, BF16, which a WLOAD forms into B8 (06 R119). -/
def Fmt.formsB8 : Fmt → Bool
  | .e4m3 => true
  | .e5m2 => true
  | .bf16 => true
  | _ => false

/-- Bytes to which BASE is aligned (07 R156). -/
def Fmt.unit (f : Fmt) : Nat := if f.packed.isSome then 4 else f.width / 8

/-- The group size fits the formats (07 R156). -/
def gsOk (f : Fmt) (sfmt gs : Nat) : Bool :=
  if f.packed.isSome || sfmt != 0 then gs == 16 || gs == 32
  else if f.formsB8 then gs == 0 || gs == 32
  else gs == 0

/-- The dimensions fit NDIM (07 R156): extents below it are not zero, extents and strides from it up are. -/
def dimsOk (d : Desc) : Bool :=
  let n := descNdim d
  decide (1 ≤ n ∧ n ≤ 5) && (List.range 5).all (fun i =>
    if i < n then descField d i != 0 else descField d i == 0 && (i == 0 || descStrideBits d i == 0))

/-- The strides of a packed format keep words whole (07 R156). -/
def stridesOk (d : Desc) : Bool :=
  match (descFmt d).packed with
  | none => true
  | some k => (List.range 5).all (fun i => decide (descNdim d ≤ i) || i == 0 || decide (descStride d i % (k : Int) = 0))

/-- A descriptor is valid (07 R156). -/
def descValid (d : Desc) : Bool :=
  let f := descFmt d
  let b := descSfmt d
  d.getLsbD 383 && dfield d 382 376 == 0 && decide (dfield d 356 352 ≤ 14) && decide (b ≤ 2) && dimsOk d &&
    gsOk f b (descGs d) && (b == 0 || f.packed.isSome) &&
    canonical (descBase d) && canonical (descScale d) && canonical (descMeta d) &&
    (descBase d).toNat % f.unit == 0 && (b != 2 || (descScale d).toNat % 2 == 0) && stridesOk d

/-- The element offset of coordinates (07 R155). -/
def elemOffset (d : Desc) (x : List Nat) : Int :=
  ((List.range 5).map (fun i => (x.getD i 0 : Int) * descStride d i)).sum

/-- Where an element lies (07 R155): the address of its bytes or of its word, and for a packed format its place in the word. -/
structure ElemAt where
  addr : Int
  bytes : Nat
  slot : Option Nat

/-- The place of an element at an offset from BASE (07 R155, 05 R96). -/
def elemAt (d : Desc) (e : Int) : ElemAt :=
  let f := descFmt d
  match f.packed with
  | some k => { addr := (descBase d).toInt + 4 * (e / (k : Int)), bytes := 4, slot := some (e % (k : Int)).toNat }
  | none => { addr := (descBase d).toInt + e * (f.width / 8 : Nat), bytes := f.width / 8, slot := none }

/-- An engine's exact address in the 57-bit canonical range (07 R155). -/
def inRange57 (a : Int) : Bool := decide (-(2 ^ 56 : Nat) ≤ a ∧ a < (2 ^ 56 : Nat))

/-- What an engine's access gives: a result with the state, a wait for a port, or the failure of the operation. -/
inductive Eng (α : Type) where
  | ok (a : α) (s : State)
  | waits
  | fails (e : OpErr)

/-- The next access after one that went on. -/
def Eng.andThen {α β : Type} (r : Eng α) (k : α → State → Eng β) : Eng β :=
  match r with
  | .ok a s => k a s
  | .waits => .waits
  | .fails e => .fails e

/-- An address out of range as a translation error (07 R155). -/
def rangeErr (a : Int) : OpErr := { err := 1, addr := BitVec.ofInt 64 a }

/-- A translation made for an operation by its die's shared TLB (07 R171, R172). -/
def engTranslate (s : State) (o : AsyncOp) (a : Int) (acc : Acc) : Eng Nat :=
  if !inRange57 a then .fails (rangeErr a)
  else
    match translate s (dieUnit o.core) o.slice o.ctx (BitVec.ofInt 64 a) acc with
    | .error .waits => .waits
    | .error (.fail st k ia) =>
      .fails { err := trOpErr (.fail st k ia), addr := BitVec.ofInt 64 a, ia := trIa (.fail st k ia) }
    | .error (.poison tag) => .fails { err := 12, addr := BitVec.ofInt 64 a, tag := tag }
    | .ok (k, s1) => .ok k s1

/-- A read takes some byte from the line rather than from the core's store buffer (10 R237). -/
def readsLine (s : State) (core k n : Nat) : Bool :=
  (List.range n).any (fun i => match newestByte (getCore s core) (k + i) with
    | none => true
    | some (_, _, inL1) => inL1)

/-- The release marks on bytes as a core's engines observe them (08 R187, R188). -/
def engineMarks (s : State) (core sl k n : Nat) : List RelMark :=
  let line := homeMarks s sl (lineOf k)
  (List.range n).filterMap (fun i => match newestByte (getCore s core) (k + i) with
    | some (_, m, _) => m
    | none => tfind line (k + i))

/-- The marks that an operation has read, kept for later acquire fences of its issuing threads (08 R175, R184, R188). -/
def keepRead (s : State) (o : AsyncOp) (ms : List RelMark) : State :=
  if ms.isEmpty then s
  else o.threads.foldl (fun s t => match getWarp s o.core t.1 with
    | none => s
    | some w => putWarp s o.core t.1 (keepSeen w ((lanesOf t.2).flatMap (fun l => ms.map (fun m => (l, m)))))) s

/-- The end of an engine's read of a line (08 R183, R187, R188): the core's copy goes, so that no later load of an issuing thread reads
older bytes than the operation has. -/
def readDone (s : State) (o : AsyncOp) (k n : Nat) : State :=
  keepRead (dropLine (l2Fill s o.slice (lineOf k) 0) o.core (lineOf k)) o (engineMarks s o.core o.slice k n)

/-- n bytes read for an operation at an address (08 R188; 10 R237): the number they make. -/
def engRead (s : State) (o : AsyncOp) (a : Int) (n : Nat) : Eng Nat :=
  (engTranslate s o a .read).andThen fun k s1 =>
    let bs := bytesNat (engineBytes s1 o.core o.slice k n)
    let away := !l2Full s1 o.slice (lineOf k)
    let poison := (replaced (linePoison s1 (lineOf k)) (l1Stored (getCore s1 o.core) (lineOf k))).isSome
    if !readsLine s1 o.core k n then .ok bs (readDone s1 o k n)
    else if poison || (away && reach s1 o.slice k == .refused) then
      .fails { err := 12, addr := BitVec.ofInt 64 a, tag := consumed s1 k }
    else if away && reach s1 o.slice k == .waits then .waits
    else .ok bs (readDone s1 o k n)

/-- Bytes written at a key for an operation (08 R188, R189). -/
def engPut (s : State) (o : AsyncOp) (k : Nat) (bs : List Byte) : Eng Unit := .ok () (engineWrite s o.core k bs o.origin o.mark o.fence)

/-- Bytes written for an operation at an address. -/
def engWrite (s : State) (o : AsyncOp) (a : Int) (bs : List Byte) : Eng Unit :=
  (engTranslate s o a .write).andThen fun k s1 => engPut s1 o k bs

/-- The bits of a packed element. -/
def packedGet (w width slot : Nat) : Nat := w / 2 ^ (width * slot) % 2 ^ width

/-- A word of n packed elements with one replaced (05 R96): the bits above the last element are zero. -/
def packedSet (w width n slot v : Nat) : Nat :=
  (w - packedGet w width slot * 2 ^ (width * slot) + v % 2 ^ width * 2 ^ (width * slot)) % 2 ^ (width * n)

/-- An element of a tensor read for an operation: its bits. -/
def readElem (s : State) (o : AsyncOp) (d : Desc) (x : List Nat) : Eng Nat :=
  let p := elemAt d (elemOffset d x)
  (engRead s o p.addr p.bytes).andThen fun w s1 =>
    match p.slot with
    | none => .ok w s1
    | some i => .ok (packedGet w (descFmt d).width i) s1

/-- An element of a tensor written for an operation; the other elements of a packed word keep their bits. -/
def writeElem (s : State) (o : AsyncOp) (d : Desc) (x : List Nat) (v : Nat) : Eng Unit :=
  let p := elemAt d (elemOffset d x)
  (engTranslate s o p.addr .write).andThen fun k s1 =>
    match p.slot with
    | none => engPut s1 o k (natBytes p.bytes v)
    | some i => engPut s1 o k (natBytes 4 (packedSet (bytesNat (engineBytes s1 o.core o.slice k 4)) (descFmt d).width
        ((descFmt d).packed.getD 1) i v))

/-- Bytes that n elements of a format take (07 R161): of a packed format the 32-bit words over the total, the last one whole (log 36). -/
def fmtBytes (f : Fmt) (n : Nat) : Nat :=
  match f.packed with
  | some k => (n + k - 1) / k * 4
  | none => n * (f.width / 8)

/-- An operation, if it is still in flight. -/
def findOp (s : State) (id : Nat) : Option AsyncOp := tfind s.ops id

/-- An operation replaced. -/
def putOp (s : State) (id : Nat) (o : AsyncOp) : State := { s with ops := tset s.ops id o }

/-- The position of an operation in a stop record (10 R235): a copy's in bytes. -/
def positionOf (o : AsyncOp) : DWord := BitVec.ofNat 64 (if o.cls = 0 then o.progress * 4096 else o.progress)

/-- A failed operation as its report names it (07 R167). -/
def failureOf (o : AsyncOp) (e : OpErr) : AsyncErr :=
  { cls := o.cls, seq := o.issue, age := o.accept, err := e.err, addr := e.addr, ia := e.ia, lanes := e.lanes, unit := opUnit o,
    progress := positionOf o, pos := o.pos }

/-- A completion tag set by an operation that finishes (07 R166): a set tag keeps what it has. -/
def setTag (s : State) (o : AsyncOp) (e : Option OpErr) : State :=
  match o.tag with
  | none => s
  | some n =>
    let c := getCore s o.core
    let b := c.bank o.bank
    if b.tagRdy.getLsbD n then s
    else
      let errs := match e with
        | none => b.tagErrs
        | some x => tset b.tagErrs n (failureOf o x)
      putCore s o.core (c.putBank o.bank { b with tagRdy := b.tagRdy ||| oneLane n, tagErrs := errs })

/-- An operation finishes (07 R166; 06 R140): its tag is set, its permit returned; its report is still to come. A failed integrity tag that
it met is told to the tenant (11 R271). -/
def finishOp (s : State) (id : Nat) (o : AsyncOp) (e : Option OpErr) : State :=
  tellTag (setTag (putOp s id { o with finished := true, err := e, permit := .none }) o e) o.slice (e.bind (fun x => x.tag))

/-- A context's engines work (10 R230, R231, R242): it runs or quiesces, and no stop line has stopped the unit. -/
def unitRuns (s : State) (sl ctx : Nat) (u : EngineRef) : Bool :=
  let x := getCtx s sl ctx
  (x.state == 2 || x.state == 4) && (match x.stop with
    | none => true
    | some st => st.units.contains u)

/-- An operation may make its next step: it is unfinished and not suspended, and its engine works for its context. -/
def opRuns (s : State) (o : AsyncOp) : Bool := !o.finished && !o.suspended && unitRuns s o.slice o.ctx (opUnit o)

end Sys2Proof.Machine
end

