-- ==== Sys2Proof/Machine/Async.lean ====
section
/-!
DEFINITION. The instructions that issue copy-class, matrix-class and collective operations (07 R157-R164; 13 R299-R301, R306, R317,
R318; 14 R335, R336; 16 R416, R417): their checks, and what the operations capture.
-/
namespace Sys2Proof.Machine

/-- The unfinished matrix operations of a cluster that are in its booth or may be (06 R117, R145): none that a bank swap keeps out. -/
def boothQueue (s : State) (me : Nat) : List (Nat × AsyncOp) :=
  s.ops.filter (fun e => e.2.cls == 1 && clusterOf e.2.core == me && !e.2.finished && !(e.2.away && e.2.suspended))

/-- The places of a booth (06 R117). -/
def boothPlaces : Nat := 32

/-- Entries of a booth (06 R117): those that have not left it, and as many of those that come back as it has places left for, the oldest
first (06 R145; log 107). -/
def boothEntries (s : State) (me : Nat) : List (Nat × AsyncOp) :=
  let es := boothQueue s me
  let back := (es.filter (fun e => e.2.away)).take (boothPlaces - (es.filter (fun e => !e.2.away)).length)
  es.filter (fun e => !e.2.away || back.any (fun x => x.1 == e.1))

/-- The booth of a core's cluster is full (06 R117, R134). -/
def boothFull (s : State) (core : Nat) : Bool := decide (boothPlaces ≤ (boothEntries s (clusterOf core)).length)

/-- An operation is issued once its checks hold (07 R164): an invalid descriptor has SUB 2, any other limit SUB 3, and the class's
counter at 63 stalls. -/
def Cx.submit (c : Cx) (cls : Nat) (valid limits : Bool) (issue : Out) : Out :=
  if !valid then c.illegalOperand 2 c.w.path
  else if !limits then c.illegalOperand 3 c.w.path
  else if c.w.counts.getD cls 0 = 63 then c.stall
  else issue

/-- The tag that a parameter register names, if its tag enable is set. -/
def tagOf (x : DWord) (enable lo : Nat) : Option Nat := if x.getLsbD enable then some (bits x.toNat (lo + 5) lo) else none

/-- A named tag lies in the team's range (07 R166). -/
def tagFits (t : Team) (tag : Option Nat) : Bool :=
  match tag with
  | none => true
  | some n => tagOk t n

/-- The formats of a CPY can be converted (07 R160). -/
def copyFormats (d e : Desc) : Bool :=
  dfield d 356 352 == dfield e 356 352 || (decide (dfield d 356 352 ≤ 10) && decide (dfield e 356 352 ≤ 10))

/-- A region of X by Y from an origin word lies within the extents (07 R159). -/
def regionFits (d : Desc) (origin : DWord) (x y : Nat) : Bool :=
  decide (origin.toNat % 2 ^ 32 + x ≤ descExt d 0 ∧ origin.toNat / 2 ^ 32 + y ≤ descExt d 1)

/-- The dimensions above the second agree (07 R159). -/
def upperAgree (d e : Desc) : Bool :=
  descField d 2 == descField e 2 && descField d 3 == descField e 3 && descField d 4 == descField e 4 &&
    ((decide (descNdim d ≤ 2) && decide (descNdim e ≤ 2)) || descNdim d == descNdim e)

/-- X and Y of a CPY (07 R159). -/
def copyX (p2 : DWord) : Nat := bits p2.toNat 23 0

/-- Y of a CPY (07 R159). -/
def copyY (p2 : DWord) : Nat := bits p2.toNat 43 24

/-- The limits of a CPY beside its descriptors' validity (07 R159). -/
def copyLimits (t : Team) (src dst : Desc) (p0 p1 p2 : DWord) : Bool :=
  copyX p2 != 0 && copyY p2 != 0 && p2.toNat / 2 ^ 51 == 0 && regionFits src p0 (copyX p2) (copyY p2) &&
    regionFits dst p1 (copyX p2) (copyY p2) && upperAgree src dst && copyFormats src dst && tagFits t (tagOf p2 44 45)

/-- CPY (07 R159; 13 R318): it captures NMODE (07 R158), and so reads it. -/
def execCpy (d r : BitVec 8) (b : BitVec 6) (s : State) : Out :=
  withCx s fun c => c.uchecks [b.toNat, b.toNat + 1, b.toNat + 2, nmodeWord]
    (let dst := c.desc d.toNat
     let src := c.desc r.toNat
     let p0 := readS c.w b.toNat
     let p1 := readS c.w (b.toNat + 1)
     let p2 := readS c.w (b.toNat + 2)
     c.submit 0 (descValid dst && descValid src) (copyLimits c.t src dst p0 p1 p2)
       (c.issue 0 (.cpy src dst p0 p1 p2) c.w.path (tagOf p2 44 45) 0 4 c.w c.s))

/-- The limits that ACCLD and ACCST share (13 R299, R301): the greatest format code differs. -/
def tileLimits (t : Team) (d : Desc) (tile : Nat) (p : DWord) (maxFmt : Nat) : Bool :=
  decide (tile < t.accB) && decide (dfield d 356 352 ≤ maxFmt) && decide (descNdim d ≤ 2) && p.toNat / 2 ^ 61 == 0 &&
    decide (bits p.toNat 19 0 + bits p.toNat 53 47 + 1 ≤ descExt d 0) &&
    decide (bits p.toNat 39 20 + bits p.toNat 46 40 + 1 ≤ descExt d 1) && tagFits t (tagOf p 54 55)

/-- ACCLD (13 R299-R301). -/
def execAccld (t : BitVec 8) (a : BitVec 7) (r : BitVec 6) (s : State) : Out :=
  withCx s fun c => c.uchecks [r.toNat]
    (let p := readS c.w r.toNat
     c.submit 0 (descValid (c.desc t.toNat)) (tileLimits c.t (c.desc t.toNat) a.toNat p 4)
       (c.issue 0 (.accld (c.desc t.toNat) a.toNat p) c.w.path (tagOf p 54 55) 0 4 c.w c.s))

/-- ACCST (13 R299-R301): it captures NMODE (07 R158), and so reads it. -/
def execAccst (t : BitVec 8) (a : BitVec 7) (r : BitVec 6) (s : State) : Out :=
  withCx s fun c => c.uchecks [r.toNat, nmodeWord]
    (let p := readS c.w r.toNat
     c.submit 0 (descValid (c.desc t.toNat)) (tileLimits c.t (c.desc t.toNat) a.toNat p 10)
       (c.issue 0 (.accst (c.desc t.toNat) a.toNat p) c.w.path (tagOf p 54 55) 0 4 c.w c.s))

/-- The limits of MXMETA (14 R335, R336). -/
def metaLimits (t : Team) (d : Desc) (p : DWord) : Bool :=
  let len := bits p.toNat 22 11
  descMeta d != 0 && (descMeta d).toNat % 64 == 0 && decide (1 ≤ len ∧ len ≤ 2048) && decide (bits p.toNat 10 0 + len ≤ 2048) &&
    p.toNat / 2 ^ 61 == 0 && tagFits t (tagOf p 54 55)

/-- MXMETA (14 R335, R336). -/
def execMxmeta (t : BitVec 8) (r : BitVec 6) (s : State) : Out :=
  withCx s fun c => c.uchecks [r.toNat]
    (let p := readS c.w r.toNat
     c.submit 0 (descValid (c.desc t.toNat)) (metaLimits c.t (c.desc t.toNat) p)
       (c.issue 0 (.mxmeta (c.desc t.toNat) p) c.w.path (tagOf p 54 55) 0 4 c.w c.s))

/-- The limits of ACTLD (13 R306). -/
def actLimits (d : Desc) : Bool := descFmt d == .n32 && descNdim d == 1 && decide (256 ≤ descExt d 0)

/-- ACTLD (09 R216, 13 R306). -/
def execActld (t : BitVec 8) (s : State) : Out :=
  withCx s fun c => c.submit 0 (descValid (c.desc t.toNat)) (actLimits (c.desc t.toNat))
    (c.issue 0 (.actld (c.desc t.toNat)) c.w.path none 0 4 c.w c.s)

/-- The fields of a WLOAD's parameter (06 R118): first column, first stored row, columns and stored rows. -/
structure WRegion where
  ncol : Nat
  krow : Nat
  cols : Nat
  rows : Nat

/-- The region that a WLOAD's parameter names (06 R118). -/
def wregion (p : DWord) : WRegion :=
  { ncol := bits p.toNat 63 48, krow := 16 * bits p.toNat 47 32, cols := 128 * bits p.toNat 31 16, rows := 128 * bits p.toNat 15 0 }

/-- Cells of a weight (06 R119). -/
def cellsPer (f : Fmt) : Nat := if f.formsB8 then 2 else 1

/-- The formats that a WLOAD takes (06 R119). -/
def weightFormats (d : Desc) : Bool :=
  let f := descFmt d
  if f.packed.isSome then descGs d == 16 || descGs d == 32 else f.formsB8 && descSfmt d == 0 && descGs d == 32

/-- The limits of a WLOAD beside the formats (06 R118). -/
def weightLimits (d : Desc) (p : DWord) : Bool :=
  let w := wregion p
  w.cols != 0 && w.rows != 0 && weightFormats d && decide (w.rows * w.cols * cellsPer (descFmt d) ≤ 2097152) &&
    decide (w.krow + w.rows ≤ descExt d 0) && decide (w.ncol + w.cols ≤ descExt d 1) && w.krow % descGs d == 0

/-- A slot's generation in a matrix engine (06 R121). -/
def meGen (s : State) (me ws : Nat) : Nat := tget 0 (tget {} s.engines me).gens ws

/-- A slot's generation stepped when a WLOAD is accepted (06 R121). -/
def bumpGen (s : State) (me ws : Nat) : State :=
  let e := tget {} s.engines me
  { s with engines := tset s.engines me { e with gens := tset e.gens ws ((tget 0 e.gens ws + 1) % 2 ^ 16) } }

/-- WLOAD (06 R118, R121, R134; 16 R417). -/
def execWload (k : BitVec 4) (t : BitVec 8) (r : BitVec 6) (s : State) : Out :=
  withCx s fun c => c.uchecks [r.toNat]
    (let p := readS c.w r.toNat
     let d := c.desc t.toNat
     c.submit 1 (descValid d) (weightLimits d p)
       (if boothFull c.s c.core then c.stall
        else c.issue 1 (.wload k.toNat d p (meGen (bumpGen c.s (clusterOf c.core) k.toNat) (clusterOf c.core) k.toNat)) c.w.path none 0 4 c.w
          (bumpGen c.s (clusterOf c.core) k.toNat)))

/-- The entries of a collective group (11 R279), in ascending order of their place. -/
def groupMembers (x : Slice) (first n : Nat) : List (BitVec 128) := (List.range n).map (fun i => tget 0 x.members (first + i))

/-- The member of a rank (11 R279). -/
def memberOfRank (ms : List (BitVec 128)) (r : Nat) : Option (BitVec 128) := ms.find? (fun m => bits m.toNat 89 84 == r)

/-- A member entry's fields (11 R279). -/
def memberOf (m : BitVec 128) : CollMember :=
  { pkg := bits m.toNat 79 64, slice := bits m.toNat 83 80, addr := BitVec.ofNat 64 (m.toNat % 2 ^ 64) }

/-- The routing entry that a member's tensor is reached through (11 R278, R279): its address, an intermediate one, lies in the window
after stage 2. waits answers for a walk that waits for a port (11 R258). -/
def memberRoute (s : State) (core sl : Nat) (a : DWord) (waits : Bool) (ok : BitVec 128 → Bool) : Bool :=
  a.toNat / 2 ^ 52 == 0 &&
    match leaf2 s (dieUnit core) sl a.toNat with
    | .error .waits => waits
    | .error _ => false
    | .ok (l, _) => isLink (l.out + a.toNat % l.size) && (routeOf (getSlice s sl) (l.out + a.toNat % l.size)).any ok

/-- A member entry agrees with the slice or with its routing entry (11 R279). -/
def memberOk (s : State) (core sl self size : Nat) (waits : Bool) (r : Nat) (m : CollMember) : Bool :=
  if r = self then m.pkg == s.pkgid && m.slice == sl && m.addr == 0
  else m.addr.toNat % size == 0 &&
    memberRoute s core sl m.addr waits (fun e => bits e.toNat 119 104 == m.pkg && bits e.toNat 103 100 == m.slice)

/-- The group that a COLL captures (11 R279), or none where an entry breaks the rule; with waits, one where a walk that waits for a port
might still show that an entry keeps it. -/
def captureGroup (s : State) (core sl g size : Nat) (waits : Bool) : Option CollGroup :=
  let x := getSlice s sl
  let e := (tget 0 x.groups g).toNat
  let n := bits e 15 8
  let self := bits e 7 2
  let ms := groupMembers x (bits e 23 16) n
  let byRank := (List.range n).filterMap (memberOfRank ms)
  if bitOf e 0 && decide (1 ≤ n ∧ n ≤ 64 ∧ bits e 23 16 + n ≤ 256) && ms.all (fun m => m.getLsbD 127) && byRank.length == n &&
      decide (self < n) && byRank.zipIdx.all (fun m => memberOk s core sl self size waits m.2 (memberOf m.1)) then
    some { timeout := bits e 63 32, self := self, members := byRank.map memberOf }
  else none

/-- The limits of a COLL's registers (07 R163, 13 R317), for a group of n members. -/
def collLimits (t : Team) (d : Desc) (p0 p1 p2 : DWord) (n : Nat) : Bool :=
  let op := bits p0.toNat 3 0
  decide (op ≤ 4) && p0.toNat / 2 ^ 23 == 0 && p2 != 0 && decide (p1.toNat + p2.toNat ≤ descExt d 0) &&
    (op != 2 || p2.toNat % n == 0) && (op != 4 || decide (bits p0.toNat 15 10 < n)) && tagFits t (tagOf p0 16 17)

/-- The formats of a COLL's tensor (07 R163). -/
def collFormat (f : Fmt) : Bool := f == .f32 || f == .bf16 || f == .i32

/-- COLL (07 R163, 11 R279, 13 R317): it captures its group and the key generation of the tenant (11 R272); it stalls while the walk to a
member's routing entry waits for a port (11 R258). -/
def execColl (t : BitVec 8) (b : BitVec 6) (s : State) : Out :=
  withCx s fun c => c.uchecks [b.toNat, b.toNat + 1, b.toNat + 2]
    (let d := c.desc t.toNat
     let p0 := readS c.w b.toNat
     let p1 := readS c.w (b.toNat + 1)
     let p2 := readS c.w (b.toNat + 2)
     let group := captureGroup c.s c.core c.w.slice (bits p0.toNat 9 4) ((descFmt d).width / 8)
     c.submit 3 (descValid d && descNdim d == 1 && collFormat (descFmt d))
       (match group true with
         | none => false
         | some g => collLimits c.t d p0 p1 p2 g.members.length)
       (match group false with
         | none => c.stall
         | some g => c.issue 3 (.coll d p0 p1 p2 g (getSlice c.s c.w.slice).kgen) c.w.path (tagOf p0 16 17) 0 4 c.w c.s))

end Sys2Proof.Machine
end

