-- ==== Sys2Proof/Machine/LoadStore.lean ====
section
/-!
DEFINITION. Loads and stores of threads and of paths (15 R367-R369; 16 R393-R396), and the fence (13 R325).
-/
namespace Sys2Proof.Machine

/-- Bytes of a VLD or VST size code (16 R393). -/
def vmSize (z : Nat) : Nat :=
  match z with
  | 0 => 1
  | 1 => 2
  | 2 => 4
  | 3 => 8
  | 4 => 16
  | 5 => 1
  | _ => 2

/-- Registers of a VLD or VST size code (16 R393). -/
def vmRegs (z : Nat) : Nat :=
  match z with
  | 3 => 2
  | 4 => 4
  | _ => 1

/-- The address of each active lane of a VM instruction (04 R73). -/
def vmAddrs (w : Warp) (act : LaneMask) (b o sub size : Nat) (off : DWord) : List (Nat × DWord) :=
  (lanesOf act).map (fun l => (l, vmAddr w b o sub size off l))

/-- The failures of loads that consume poison (10 R237, 16 R396). -/
def poisonFails (s : State) (addrs : Tbl DWord) (keys : Tbl Nat) (vs : Tbl Loaded) : List (Nat × LaneFail) :=
  vs.filterMap (fun v => if v.2.poisoned then some (v.1, poisonFail s 8 0 (tget 0 addrs v.1) (tget 0 keys v.1)) else none)

/-- The lines of some keys, each once. -/
def keyLines (ks : List (Nat × Nat)) : List Nat := (ks.map (fun e => lineOf e.2)).eraseDups

/-- What a load of a lane at a key has read before its retirement, if it has (03 R48). -/
def boundAt (w : Warp) (lane k n : Nat) : Option Bound :=
  w.bound.find? (fun e => e.lane == lane && e.key == k && e.bytes.length == n)

/-- A lane's early load may be one of the threads of some lanes: its own, or the whole path's (08 R175). -/
def boundOf (m : LaneMask) (e : Bound) : Bool := e.lane == 64 || m.getLsbD e.lane

/-- The threads of some lanes have read or changed n bytes from a key up: what they had read there early is of no more use (08 R177). -/
def dropBound (m : LaneMask) (k n : Nat) (w : Warp) : Warp :=
  { w with bound := w.bound.filter (fun e => !boundOf m e || decide (k + n ≤ e.key ∨ e.key + e.bytes.length ≤ k)) }

/-- What an early load has read with the bytes of its own lane's older store, which it reads in flight (03 R48). -/
def patchBound (k : Nat) (bs : List Byte) (e : Bound) : Bound :=
  { e with bytes := (List.range e.bytes.length).map (fun i => ((byteTbl k bs).lookup (e.key + i)).getD (e.bytes.getD i 0))
           marks := tkeep e.marks (fun a _ => decide (a < k ∨ k + bs.length ≤ a)) }

/-- The stores of some lanes as the lanes' early loads read them (03 R48). -/
def storeBound (uniform : Bool) (path : LaneMask) (ks : List (Nat × Nat)) (data : Nat → List Byte) (w : Warp) : Warp :=
  ks.foldl (fun w e => { w with bound := w.bound.map (fun b =>
    if boundOf (if uniform then path else oneLane e.1) b then patchBound e.2 (data e.1) b else b) }) w

/-- What a lane's load returns: a relaxed one what it has read before its retirement, if it has (03 R48). -/
def Cx.loaded (c : Cx) (uniform : Bool) (acq : Option Nat) (s : State) (e : Nat × Nat) (n : Nat) : Loaded :=
  match if acq.isNone then boundAt c.w (if uniform then 64 else e.1) e.2 n else none with
  | some b => { bytes := b.bytes, marks := b.marks.map (fun m => m.2), poisoned := false }
  | none => loadBytes s c.core c.w.slice e.2 n

/-- A lane's load must wait for a port. -/
def Cx.loadStalls (c : Cx) (uniform : Bool) (acq : Option Nat) (s : State) (e : Nat × Nat) (n : Nat) : Bool :=
  (if acq.isNone then boundAt c.w (if uniform then 64 else e.1) e.2 n else none).isNone && loadWaits s c.core c.w.slice e.2 n

/-- The warp whose lanes have loaded: what they had read there early is used, and an acquire is an ordering point (03 R48). -/
def Cx.loadedWarp (c : Cx) (uniform : Bool) (acq : Option Nat) (ks : List (Nat × Nat)) (n : Nat) : Warp :=
  if acq.isSome then orderLoads c.w else ks.foldl (fun w e => dropBound (if uniform then c.w.path else oneLane e.1) e.2 n w) c.w

/-- Loads checked and read lane by lane (16 R396): they fault, wait for a port, or go on with what each lane read. An acquire at
.cl or wider reads from the home, one at .sl or wider from the port (07 R150, 08 R179); hint is the memory prefix's (07 R149). What a
relaxed load reads may have been read before its retirement (`earlyLoad`; log 99). -/
def Cx.loads (c : Cx) (uniform : Bool) (addrs : Tbl DWord) (size : Nat) (acq : Option Nat) (hint : Nat)
    (k : Cx → State → Tbl Loaded → Out) : Out :=
  let ck := checkLanes c.core c.w.slice c.w.ctx size .read addrs c.s
  match acquireLines ck.s c.core c.w.slice (acq.getD 0) (keyLines ck.keys) with
  | none => c.stall
  | some s1 =>
    let vs := ck.keys.map (fun e => (e.1, c.loaded uniform acq s1 e size))
    let fails := ck.fails ++ poisonFails c.s addrs ck.keys vs
    if ck.waits then c.stall
    else if !fails.isEmpty then c.laneFault uniform fails
    else if ck.keys.any (fun e => c.loadStalls uniform acq s1 e size) then c.stall
    else k { c with w := c.loadedWarp uniform acq ck.keys size } ((keyLines ck.keys).foldl (fun s l => fillLine s c.core c.w.slice l hint) s1) vs

/-- The marks that each of some lanes read; a uniform access is one of every lane of its path (08 R175). -/
def lanesMarks (uniform : Bool) (lanes : LaneMask) (rs : Tbl (List RelMark)) : List (Nat × RelMark) :=
  (lanesOf lanes).flatMap (fun l => (rs.filter (fun r => uniform || r.1 == l)).flatMap (fun r => r.2.map (fun m => (l, m))))

/-- The end of a load (08 R184, R187): an acquire checks the marks it read; a relaxed read keeps them for a later fence. -/
def Cx.retireLoad (c : Cx) (uniform : Bool) (s : State) (w : Warp) (lanes : LaneMask) (vs : Tbl Loaded) (acq : Option Nat) : Out :=
  match acq with
  | some sc => .next (retireWith c s w [] (noteMarks c sc (vs.flatMap (fun v => v.2.marks))))
  | none => c.retireIn s (keepSeen w (lanesMarks uniform lanes (vs.map (fun v => (v.1, v.2.marks)))))

/-- Register i of a loaded value (16 R393, R394): sizes 5 and 6 are sign-extended. -/
def loadedWord (z i : Nat) (bs : List Byte) : Word :=
  let n := bytesNat ((bs.drop (4 * i)).take 4)
  match z with
  | 5 => BitVec.ofInt 32 (signedNat 8 n)
  | 6 => BitVec.ofInt 32 (signedNat 16 n)
  | _ => BitVec.ofNat 32 n

/-- n registers of each active lane written from loaded values, the lowest register first. -/
def writeLoaded (w : Warp) (d n z : Nat) (act : LaneMask) (vs : Tbl Loaded) : Warp :=
  (List.range n).foldl (fun w i => writeV w (d + i) act 0 (fun l => loadedWord z i ((tfind vs l).map (fun v => v.bytes)|>.getD []))) w

/-- The acquire scope of a memory prefix, if its order acquires (04 R74). -/
def acqOf (q : Option MPre) : Option Nat := if orderM q = 1 ∨ orderM q = 3 then some (scopeM q) else none

/-- The release scope of a memory prefix, if its order releases (04 R74). -/
def relOf (q : Option MPre) : Option Nat := if orderM q = 2 ∨ orderM q = 3 then some (scopeM q) else none

/-- VLD (16 R393-R396). -/
def execVld (q : Option MPre) (d : BitVec 7) (b : BitVec 6) (o : BitVec 7) (z : BitVec 3) (u : BitVec 2) (s : State) : Out :=
  withCx s fun c =>
    let act := activeM c.w q
    let n := vmRegs z.toNat
    c.vchecks act 0 (groupRegs d.toNat n) [(d.toNat, n), (o.toNat, 1)] [o.toNat] [b.toNat] (guardRegM q)
      (c.loads false (vmAddrs c.w act b.toNat o.toNat u.toNat (vmSize z.toNat) (offOf q)) (vmSize z.toNat) (acqOf q) (hintM q)
        fun c s1 vs => c.retireLoad false s1 (advance (lenOf q) (writeLoaded (bump c.w) d.toNat n z.toNat act vs)) act vs (acqOf q))

/-- The stores of some lanes enter the store buffer in ascending lane order (08 R177); none where it has too few entries (03 R49). -/
def storeLanes (c : Cx) (uniform : Bool) (own : Option Nat) (hint : Nat) : List (Nat × Nat × List Byte) → State → Option State
  | [], s => some s
  | (l, k, bs) :: t, s =>
    if bufferFull (getCore s c.core) && needsEntry (getCore s c.core) (lineOf k) own.isSome (c.fencesBefore (if uniform then c.w.path else oneLane l)) then none
    else storeLanes c uniform own hint t (storeBytes s c k bs (if uniform then c.w.path else oneLane l) own hint)

/-- Stores checked lane by lane and retired (16 R395, R396): they fault, stall while the buffer is full (03 R49), or enter it. -/
def Cx.stores (c : Cx) (uniform : Bool) (addrs : Tbl DWord) (size : Nat) (own : Option Nat) (hint : Nat) (data : Nat → List Byte)
    (w : Warp) : Out :=
  let ck := checkLanes c.core c.w.slice c.w.ctx size .write addrs c.s
  if ck.waits then c.stall
  else if !ck.fails.isEmpty then c.laneFault uniform ck.fails
  else if bufferFull (getCore c.s c.core) && !ck.keys.isEmpty then c.stall
  else
    match storeLanes c uniform own hint (ck.keys.map (fun e => (e.1, e.2, data e.1))) ck.s with
    | none => c.stall
    | some s1 => c.retireIn (acquireCopies s1 c.core c.w.slice (own.getD 0)) (storeBound uniform c.w.path ck.keys data w)

/-- The data of a lane's store (16 R394): n registers, low word first, cut to the size. -/
def storeData (w : Warp) (d n size l : Nat) : List Byte :=
  ((List.range n).flatMap (fun i => natBytes 4 (readLane w (d + i) l).toNat)).take size

/-- VST (16 R393-R396). -/
def execVst (q : Option MPre) (d : BitVec 7) (b : BitVec 6) (o : BitVec 7) (z : BitVec 3) (u : BitVec 2) (s : State) : Out :=
  withCx s fun c =>
    let act := activeM c.w q
    let n := vmRegs z.toNat
    c.vchecks act 0 [] [(d.toNat, n), (o.toNat, 1)] (groupRegs d.toNat n ++ [o.toNat]) [b.toNat] (guardRegM q)
      (c.stores false (vmAddrs c.w act b.toNat o.toNat u.toNat (vmSize z.toNat) (offOf q)) (vmSize z.toNat) (relOf q) (hintM q)
        (storeData c.w d.toNat n (vmSize z.toNat)) (advance (lenOf q) (bump c.w)))

/-- Bytes of a ULD or UST size code (15 R367). -/
def uSize (z : Nat) : Nat :=
  match z with
  | 0 => 1
  | 1 => 2
  | 2 => 4
  | 3 => 8
  | 4 => 1
  | 5 => 2
  | _ => 4

/-- The address of ULD and UST (15 R368). -/
def uAddr (w : Warp) (a size : Nat) (o : BitVec 10) : DWord := readS w a + o.signExtend 64 * BitVec.ofNat 64 size

/-- A value loaded by ULD (15 R367): codes 4 to 6 are sign-extended. -/
def uLoaded (z : Nat) (bs : List Byte) : DWord :=
  if 4 ≤ z then BitVec.ofInt 64 (signedNat (8 * uSize z) (bytesNat bs)) else BitVec.ofNat 64 (bytesNat bs)

/-- ULD (15 R367-R369): a relaxed load of every thread of the path. -/
def execUld (d a : BitVec 6) (z : BitVec 3) (o : BitVec 10) (s : State) : Out :=
  withCx s fun c => c.uchecks [a.toNat]
    (c.loads true [(0, uAddr c.w a.toNat (uSize z.toNat) o)] (uSize z.toNat) none 0
      fun c s1 vs => c.retireLoad true s1 (advance 4 (writeS (bump c.w) d.toNat
        (uLoaded z.toNat ((tfind vs 0).map (fun v => v.bytes)|>.getD [])))) c.w.path vs none)

/-- UST (15 R367-R369): a relaxed store of every thread of the path, which the narrowest of their release fences marks (08 R175, R187). It reads
the whole of its data register (15 R360). -/
def execUst (d a : BitVec 6) (z : BitVec 3) (o : BitVec 10) (s : State) : Out :=
  withCx s fun c => c.uchecks [d.toNat, a.toNat]
    (c.stores true [((lowest c.w.path).getD 0, uAddr c.w a.toNat (uSize z.toNat) o)] (uSize z.toNat) none 0
      (fun _ => natBytes (uSize z.toNat) (readS c.w d.toNat).toNat) (advance 4 (bump c.w)))

/-- The marks that a path's lanes keep for an acquire fence, and the warp without them (08 R184). -/
def takeSeen (w : Warp) (lanes : LaneMask) : List RelMark × Warp :=
  ((w.seen.filter (fun e => lanes.getLsbD e.1)).map (fun e => e.2), { w with seen := w.seen.filter (fun e => !lanes.getLsbD e.1) })

/-- FENCE (13 R325): kinds 0 full, 1 acquire, 2 release. A release at .cl or wider waits until the core's older stores have reached
their home, and at .sl or wider the port behind it; later reads find no older clean copy again (08 R179, R185; log 117). -/
def execFence (sc : BitVec 3) (k : BitVec 2) (s : State) : Out :=
  withCx s fun c =>
    let rel := k != 1
    let acq := k != 2
    match if rel && decide (3 ≤ sc.toNat) then drainScope c.s c.core c.w.slice sc.toNat else some c.s with
    | none => c.stall
    | some s1 =>
      let s2 := acquireCopies (if rel then noteFence s1 c.core else s1) c.core c.w.slice sc.toNat
      let w0 := orderLoads (bump c.w)
      let (ms, w1) := if acq then takeSeen w0 c.w.path else ([], w0)
      let w2 := if rel then { w1 with relFence := (lanesOf c.w.path).foldl (fun t l => tset t l sc.toNat) w1.relFence } else w1
      .next (retireWith c s2 (advance 4 w2) [] (noteMarks c sc.toNat ms))

end Sys2Proof.Machine
end

