-- ==== Sys2Proof/Machine/Atomic.lean ====
section
/-!
DEFINITION. Atomic read-modify-writes (15 R363, R364, R377-R379; 08 R177, R183), performed at the home of their line.
-/
namespace Sys2Proof.Machine

/-- Bytes of an atomic operation (15 R378). -/
def atomSize (op : Nat) : Nat := if op = 11 then 8 else 4

/-- What an atomic operation leaves in memory (15 R378): none where a CAS fails; and the events of ADD.f32. -/
def atomResult (op old data swap : Nat) (rm : Rm) (sb : Bool) : Option Nat × Events :=
  let a : Word := BitVec.ofNat 32 old
  let b : Word := BitVec.ofNat 32 data
  let pick : Word → Option Nat × Events := fun x => (some x.toNat, [])
  match op with
  | 0 => pick (a + b)
  | 1 => pick (if b.slt a then b else a)
  | 2 => pick (if b.ult a then b else a)
  | 3 => pick (if a.slt b then b else a)
  | 4 => pick (if a.ult b then b else a)
  | 5 => pick (a &&& b)
  | 6 => pick (a ||| b)
  | 7 => pick (a ^^^ b)
  | 8 => pick b
  | 9 => (if a = b then some (swap % 2 ^ 32) else none, [])
  | 10 =>
    let (y, ev) := opAdd .f32 rm sb old data
    (some y, ev)
  | _ => (some ((old + data) % 2 ^ 64), [])

/-- What one lane's atomic returns: the old value, the events, and the release marks it read. -/
structure AtomDone where
  old : Nat
  events : Events
  marks : List RelMark

/-- The core's copy of a line after an atomic on it (07 R149): the line as its home holds it now, which the atomic has observed, or none
with the no-allocate hint. -/
def refreshLine (s : State) (core sl line hint : Nat) : State := fillLine (dropLine s core line) core sl line hint

/-- One atomic of some threads performed at the point of performance of its line (15 R378, R379), its slice's copy going stale: bytes a
release writes carry its mark; others keep the marks of the release sequence they continue (08 R184). -/
def atomAt (c : Cx) (op k data swap : Nat) (lanes : LaneMask) (own : Option Nat) (hint : Nat) (s : State) : AtomDone × State :=
  let n := atomSize op
  let old := bytesNat ((List.range n).map (fun i => portByte s (k + i)))
  let (new, ev) := atomResult op old data swap (nmodeRm c.w.nmode .f32) (nmodeSat c.w.nmode .f32)
  let read := (List.range n).filterMap (fun i => tfind s.marks (k + i))
  let marks := match c.releaseMark own lanes with
    | none => (List.range n).filterMap (fun i => (tfind s.marks (k + i)).map (fun m => (k + i, m)))
    | some m => marksOf (some m) k n
  let s1 := match new with
    | none => s
    | some v => writeHome s (lineOf k) (byteTbl k (natBytes n v)) marks
  let s2 := l2Touch (staleLine s1 c.w.slice (lineOf k)) c.w.slice (lineOf k) hint new.isSome
  ({ old := old, events := ev, marks := read }, refreshLine s2 c.core c.w.slice (lineOf k) hint)

/-- What a lane of a committed atomic receives where its operation cannot be performed (15 R379). -/
def atomLost : AtomDone := { old := 0, events := [], marks := [] }

/-- The atomics of some lanes performed one at a time in ascending lane order (08 R177). A line poisoned since the check gives a deferred
error of subtype 3, a refusal one of subtype 1 or 2; the lane then receives 0 and its write is not performed (15 R379). -/
def atomLanes (c : Cx) (op : Nat) (uniform : Bool) (own : Option Nat) (hint : Nat) :
    List (Nat × Nat × Nat × Nat) → State → Tbl AtomDone × State
  | [], s => ([], s)
  | (l, k, data, swap) :: t, s =>
    let (r, s1) :=
      if isPoisoned s k then (atomLost, deferError s c.core c.origin false 3)
      else if reach s c.w.slice k == .refused then (atomLost, deferError (tellLink s c.w.slice k) c.core c.origin false (refusedSub k))
      else atomAt c op k data swap (if uniform then c.w.path else oneLane l) own hint s
    let (rs, s2) := atomLanes c op uniform own hint t s1
    ((l, r) :: rs, s2)

/-- What must reach its home or its port before an atomic on some lines (08 R178, 15 R379): the core's older stores to them and their slice's
own bytes; with a release every older store of the core, and behind a release fence those before it (08 R182). -/
def drainFor (s : State) (core sl : Nat) (own : Option Nat) (after : Nat) (keys : List Nat) : Option State :=
  let r := if own.isSome then drainScope s core sl (own.getD 0)
    else drainSome s core (fun e => decide (e.epoch < after) || keys.any (fun k => lineOf k == e.line))
  r.bind (fun s => flushLines s sl (keys.map lineOf))

/-- An access to host memory that the port has refused (11 R258). -/
def hostRefused (s : State) (sl k : Nat) : Bool := isHost k && reach s sl k == .refused

/-- Atomics checked in every lane, then performed (15 R379); one whose checks have passed is performed on every lane. finish gives the warp
afterwards from what each lane received. -/
def Cx.atomics (c : Cx) (uniform : Bool) (op scope order hint : Nat) (lanes : LaneMask) (addrs : Tbl DWord) (data : Nat → Nat × Nat)
    (finish : Tbl AtomDone → Warp) : Out :=
  let acq := order == 1 || order == 3
  let own := if order = 2 ∨ order = 3 then some scope else none
  if c.w.det && decide (3 ≤ scope) then c.fault 0x28 0 0 lanes
  else
    let ck := checkLanes c.core c.w.slice c.w.ctx (atomSize op) .atomic addrs c.s
    if ck.waits then c.stall
    else if ck.fails.any (fun f => decide (f.2.rank < 8)) then c.laneFault uniform ck.fails
    else
      match drainFor ck.s c.core c.w.slice own (c.fencesBefore lanes) (ck.keys.map (fun e => e.2)) with
      | none => c.stall
      | some s1 =>
        let bad := ck.keys.filter (fun e => isPoisoned s1 e.2 || hostRefused s1 c.w.slice e.2)
        let fails := ck.fails ++ if c.w.checked then [] else bad.map (fun e => (e.1, poisonFail s1 8 0 (tget 0 addrs e.1) e.2))
        if !fails.isEmpty then c.laneFault uniform fails
        else if ck.keys.any (fun e => reach s1 c.w.slice e.2 == .waits) then c.stall
        else
          let (rs, s2) := atomLanes c op uniform own hint (ck.keys.map (fun e => (e.1, e.2, (data e.1).1, (data e.1).2))) s1
          let s3 := if acq || own.isSome then acquireCopies s2 c.core c.w.slice scope else s2
          let w := if acq then orderLoads (finish rs)
            else ck.keys.foldl (fun w e => dropBound (if uniform then c.w.path else oneLane e.1) e.2 (atomSize op) w) (finish rs)
          let w1 := if acq then w else keepSeen w (lanesMarks uniform lanes (rs.map (fun r => (r.1, r.2.marks))))
          .next (retireWith c s3 w1 (rs.flatMap (fun r => r.2.events))
            (if acq then noteMarks c scope (rs.flatMap (fun r => r.2.marks)) else id))

/-- What a lane received. -/
def atomOld (rs : Tbl AtomDone) (l : Nat) : Nat := ((tfind rs l).map (fun r => r.old)).getD 0

/-- VATOM (15 R377-R379): CAS and ADD.i64 use the pair d, d + 1. -/
def execVatom (q : Option MPre) (d : BitVec 7) (b : BitVec 6) (o : BitVec 7) (p : BitVec 5) (s : State) : Out :=
  withCx s fun c =>
    let act := activeM c.w q
    let op := p.toNat
    let n := if op = 9 ∨ op = 11 then 2 else 1
    let lo := fun l => (readLane c.w d.toNat l).toNat
    let hi := fun l => (readLane c.w (d.toNat + 1) l).toNat
    c.vchecks act 0 (if op = 9 then [d.toNat] else groupRegs d.toNat n) [(d.toNat, n), (o.toNat, 1)] (groupRegs d.toNat n ++ [o.toNat])
      (b.toNat :: if op = 10 then [nmodeWord] else []) (guardRegM q)
      (c.atomics false op (scopeM q) (orderM q) (hintM q) act (vmAddrs c.w act b.toNat o.toNat 0 (atomSize op) (offOf q))
        (fun l => (if op = 11 then lo l + hi l * 2 ^ 32 else lo l, hi l))
        (fun rs =>
          let w1 := writeV (bump c.w) d.toNat act 0 (fun l => BitVec.ofNat 32 (atomOld rs l))
          advance (lenOf q) (if op = 11 then writeV w1 (d.toNat + 1) act 0 (fun l => BitVec.ofNat 32 (atomOld rs l / 2 ^ 32)) else w1)))

/-- The value that UATOM returns (15 R364): the signed operations extend the sign. -/
def uatomValue (op old : Nat) : DWord :=
  if op = 0 ∨ op = 1 ∨ op = 3 then BitVec.ofInt 64 (signedNat 32 old) else BitVec.ofNat 64 old

/-- UATOM (15 R360, R363, R364): one atomic at s[a] for the path, which reads whole s registers. -/
def execUatom (d a : BitVec 6) (p : BitVec 5) (sc : BitVec 3) (o : BitVec 2) (s : State) : Out :=
  withCx s fun c =>
    let op := p.toNat
    let l := (lowest c.w.path).getD 0
    let x := (readS c.w d.toNat).toNat
    c.uchecks (a.toNat :: d.toNat :: if op = 9 then [d.toNat + 1] else if op = 10 then [nmodeWord] else [])
      (c.atomics true op (scopeOf sc.toNat) o.toNat 0 c.w.path [(l, readS c.w a.toNat)]
        (fun _ => (if op = 11 then x else x % 2 ^ 32, (readS c.w (d.toNat + 1)).toNat % 2 ^ 32))
        (fun rs => advance 4 (writeS (bump c.w) d.toNat (uatomValue op (atomOld rs l)))))

end Sys2Proof.Machine
end

