-- ==== Sys2Proof/Machine/Cache.lean ====
section
/-!
DEFINITION. The cache operations (08 R193; 13 R315, R316; 14 R341). The home of a line holds what L2 and LLC hold, so only the store
buffer and the L1 of the core show what they do.
-/
namespace Sys2Proof.Machine

/-- The addresses at which a range of bytes enters each of its 64 KiB blocks, the smallest pages (07 R169). -/
def blockStarts (a : DWord) (size : Nat) : List DWord :=
  let first := a.toNat / 65536
  let last := (a.toNat + size - 1) / 65536
  (List.range (last - first + 1)).map (fun i => if i = 0 then a else BitVec.ofNat 64 ((first + i) * 65536))

/-- The lines of a range within the block that an address enters: the key of the first line and the number of lines. -/
def blockLines (a b : DWord) (size k : Nat) : Nat × Nat :=
  let stop := min (a.toNat + size) ((b.toNat / 65536 + 1) * 65536)
  (lineOf k, (stop - lineOf b.toNat + 127) / 128)

/-- The blocks of a range translated for a read (13 R316): their lines, or the failure at the lowest address; none while a walk must
wait. -/
def rangeLines (unit sl ctx : Nat) (a : DWord) (size : Nat) : List DWord → State → Except (Option LaneFail) (List (Nat × Nat) × State)
  | [], s => .ok ([], s)
  | b :: t, s =>
    match translate s unit sl ctx b .read with
    | .error .waits => .error none
    | .error (.fail st k ia) => .error (some (failOfTr .read b (.fail st k ia)))
    | .error (.poison tag) => .error (some (failOfTr .read b (.poison tag)))
    | .ok (k, s1) =>
      match rangeLines unit sl ctx a size t s1 with
      | .error e => .error e
      | .ok (r, s2) => .ok (blockLines a b size k :: r, s2)

/-- A line lies in some ranges of lines. -/
def lineIn (rs : List (Nat × Nat)) (line : Nat) : Bool := rs.any (fun r => decide (r.1 ≤ line ∧ line < r.1 + r.2 * 128))

/-- The first store-buffer entry of some lines. -/
def firstBuffered (p : List PStore) (rs : List (Nat × Nat)) : Option Nat := p.findIdx? (fun e => lineIn rs e.line && !e.inL1)

/-- Store-buffer entries of some lines move into the L1 while it has room, the oldest first. -/
def settleStores (rs : List (Nat × Nat)) : Nat → Core → Core
  | 0, c => c
  | n + 1, c =>
    match firstBuffered c.pend rs with
    | none => c
    | some i =>
      match (c.pend[i]?).bind (fun e => l1Room c e.line) with
      | none => c
      | some d => settleStores rs n { d with pend := intoL1 d.pend i }

/-- Store-buffer entries of some lines move into the L1 (13 R316). -/
def settleLines (s : State) (core : Nat) (rs : List (Nat × Nat)) : State :=
  putCore s core (settleStores rs (getCore s core).pend.length (getCore s core))

/-- Retired stores of some lines are written to their home (13 R316); those behind a link that is down stay on their way. -/
def writeBackLines (s : State) (core : Nat) (rs : List (Nat × Nat)) : State :=
  (((getCore s core).pend.map (fun e => e.line)).eraseDups.filter (lineIn rs)).foldl
    (fun s line => (drainLine s core line).getD s) s

/-- What a slice's ways hold of some lines of host memory is written to the host (13 R316); it stays while the port does not answer. -/
def flushRange (s : State) (sl : Nat) (rs : List (Nat × Nat)) : State :=
  ((l2Lines s sl).filter (fun l => isHost l && lineIn rs l)).foldl (fun s l => flushLine s sl l) s

/-- Lines of host memory leave a slice's ways (13 R316). -/
def dropRange (s : State) (sl : Nat) (rs : List (Nat × Nat)) : State :=
  ((l2Lines s sl).filter (fun l => isHost l && lineIn rs l)).foldl (fun s l => l2Drop s sl l) s

/-- Clean copies of some lines leave the L1 (13 R316). -/
def dropLines (s : State) (core : Nat) (rs : List (Nat × Nat)) : State :=
  putCore s core { getCore s core with clean := tkeep (getCore s core).clean (fun line _ => !lineIn rs line) }

/-- CWB and CINV (13 R316): the lines of a range written back toward a scope, and with drop set removed. -/
def cacheRange (d a scope : Nat) (drop : Bool) (s : State) : Out :=
  withCx s fun c => c.uchecks [d, a]
    (let size := (readS c.w d).toNat
     let at_ := readS c.w a
     if size = 0 then c.retire (advance 4 (bump c.w)) []
     else if 2 ^ 32 < size then c.illegalOperand 3 c.w.path
     else
       match rangeLines c.core c.w.slice c.w.ctx at_ size (blockStarts at_ size) c.s with
       | .error none => c.stall
       | .error (some f) => takeFault { c with s := tellTag c.s c.w.slice f.tag } f.code f.sub 0 false c.w.path f.addr f.ia
       | .ok (rs, s1) =>
         let s2 := if scope = 2 then settleLines s1 c.core rs else writeBackLines s1 c.core rs
         let s3 := if scope = 6 then flushRange s2 c.w.slice rs else s2
         let s4 := if drop && scope != 2 then dropLines s3 c.core rs else s3
         c.retireIn (if drop && scope = 6 then dropRange s4 c.w.slice rs else s4) (advance 4 (bump c.w)))

/-- CWB (13 R316). -/
def execCwb (d a : BitVec 6) (k : BitVec 3) (s : State) : Out := cacheRange d.toNat a.toNat k.toNat false s

/-- CINV (13 R316). -/
def execCinv (d a : BitVec 6) (k : BitVec 3) (s : State) : Out := cacheRange d.toNat a.toNat k.toNat true s

/-- One line brought to a level (14 R341): 0 the L1 and the home L2 on the way, 1 the home L2, 2 the LLC of its stack. Skipped where its
translation fails or its port does not answer. -/
def prefLine (c : Cx) (level : Nat) (s : State) (a : DWord) : State :=
  match translate s c.core c.w.slice c.w.ctx a .read with
  | .error _ => s
  | .ok (k, s1) =>
    if reach s1 c.w.slice k != .ok then s1
    else if level = 0 then fillLine s1 c.core c.w.slice (lineOf k) 0
    else if level = 1 then l2Fill s1 c.w.slice (lineOf k) 0
    else llcTouch s1 (lineOf k) false

/-- The lines that meet a range (14 R341). -/
def linesOf (a : DWord) (size : Nat) : List DWord :=
  (List.range ((a.toNat + size - 1) / 128 - a.toNat / 128 + 1)).map (fun i => BitVec.ofNat 64 ((a.toNat / 128 + i) * 128))

/-- PREF (14 R341). -/
def execPref (d a : BitVec 6) (l : BitVec 3) (s : State) : Out :=
  withCx s fun c => c.uchecks [d.toNat, a.toNat]
    (let size := (readS c.w d.toNat).toNat
     if size = 0 then c.retire (advance 4 (bump c.w)) []
     else if 2 ^ 32 < size then c.illegalOperand 3 c.w.path
     else
       c.retireIn ((linesOf (readS c.w a.toNat) size).foldl (prefLine c l.toNat) c.s) (advance 4 (bump c.w)))

end Sys2Proof.Machine
end

