-- ==== Sys2Proof/Machine/DeepFile.lean ====
section
/-!
DEFINITION. The deep file (03 R58, R59; 13 R319, R320; 14 R326, R327).
-/
namespace Sys2Proof.Machine

/-- A lane's deep-file index from a register (03 R58): unsigned and exact. -/
def deepIndex (w : Warp) (a k l : Nat) : Nat := (readLane w a l).toNat + k

/-- The place of a lane's entry in the deep file. -/
def deepKey (x l : Nat) : Nat := x * 64 + l

/-- The active lanes whose index is beyond the allotment (03 R58). -/
def deepOffends (w : Warp) (act : LaneMask) (a k : Nat) : LaneMask :=
  maskOf (fun l => act.getLsbD l && decide (w.deep ≤ deepIndex w a k l))

/-- The active lanes whose entry is pending (03 R59). -/
def deepPending (w : Warp) (act : LaneMask) (a k : Nat) : LaneMask :=
  maskOf (fun l => act.getLsbD l && w.dPend.contains (deepKey (deepIndex w a k l) l))

/-- The active lanes whose entry is poisoned (03 R54). -/
def deepPoisoned (w : Warp) (act : LaneMask) (a k : Nat) : LaneMask :=
  maskOf (fun l => act.getLsbD l && w.dPoison.contains (deepKey (deepIndex w a k l) l))

/-- A lane's deep-file word. -/
def deepWord (w : Warp) (a k l : Nat) : Word := tget 0 w.d (deepKey (deepIndex w a k l) l)

/-- DRD once nothing is pending (13 R319): a poisoned entry faults. -/
def readDeep (c : Cx) (q : Option APre) (d a k : Nat) : Out :=
  let act := activeA c.w q
  let bad := deepPoisoned c.w act a k
  if bad != 0 then c.fault 0x26 1 0 bad
  else c.retire (advance (lenOf q) (writeV (bump c.w) d act (zeroedA c.w q) (deepWord c.w a k))) []

/-- The checks that DRD and DWR share (03 R54, R55, R58). -/
def deepChecks (c : Cx) (q : Option APre) (d a k : Nat) (srcs dst : List Nat) (go : Out) : Out :=
  let act := activeA c.w q
  c.vchecks act (zeroedA c.w q) dst [(d, 1), (a, 1)] srcs [] (guardRegA q)
    (if deepOffends c.w act a k != 0 then c.illegalOperand 0 (deepOffends c.w act a k) else go)

/-- DRD.blk (13 R319): it stalls while an entry is pending. -/
def execDrdBlk (q : Option APre) (d a k : BitVec 7) (s : State) : Out :=
  withCx s fun c => deepChecks c q d.toNat a.toNat k.toNat [a.toNat] [d.toNat]
    (if deepPending c.w (activeA c.w q) a.toNat k.toNat != 0 then c.stall else readDeep c q d.toNat a.toNat k.toNat)

/-- DRD.trp (13 R319): it traps while an entry is pending, and counts one EXC7 event (03 R59, 05 R111). -/
def execDrdTrp (q : Option APre) (d a k : BitVec 7) (s : State) : Out :=
  withCx s fun c => deepChecks c q d.toNat a.toNat k.toNat [a.toNat] [d.toNat]
    (let p := deepPending c.w (activeA c.w q) a.toNat k.toNat
     if p != 0 then takeTrap c 6 0 p (fun s => countClass s c.core c.slot c.w.slice c.w.ctx 7 1)
     else readDeep c q d.toNat a.toNat k.toNat)

/-- DWR (13 R319): it waits while an entry is pending; the entry's poison goes. -/
def execDwr (q : Option APre) (d a k : BitVec 7) (s : State) : Out :=
  withCx s fun c => deepChecks c q d.toNat a.toNat k.toNat [d.toNat, a.toNat] []
    (let act := activeA c.w q
     if deepPending c.w act a.toNat k.toNat != 0 then c.stall
     else
       let keys := (lanesOf act).map (fun l => (deepKey (deepIndex c.w a.toNat k.toNat l) l, readLane c.w d.toNat l))
       c.retire (advance (lenOf q) { bump c.w with
         d := keys.foldl (fun t e => tset t e.1 e.2) c.w.d
         dPoison := c.w.dPoison.filter (fun p => !keys.any (fun e => e.1 == p)) }) [])

/-- The failures of a GATH's addresses (14 R327): not canonical, then not aligned. -/
def gathFails (addrs : Tbl DWord) : List (Nat × LaneFail) :=
  addrs.filterMap (fun e =>
    if !canonical e.2 then some (e.1, { rank := 0, code := 0x23, sub := 4, addr := e.2, ia := none })
    else if e.2.toNat % 4 != 0 then some (e.1, { rank := 1, code := 0x22, sub := 0, addr := e.2, ia := none })
    else none)

/-- GATH (14 R326, R327): one gather-class operation; the entries of the active lanes become pending. With no active lane it issues
nothing (04 R71, R77). -/
def execGath (q : Option MPre) (d : BitVec 7) (b : BitVec 6) (o : BitVec 7) (u : BitVec 2) (s : State) : Out :=
  withCx s fun c =>
    let act := activeM c.w q
    let addrs := vmAddrs c.w act b.toNat o.toNat u.toNat 4 (offOf q)
    c.vchecks act 0 [] [(d.toNat, 1), (o.toNat, 1)] [d.toNat, o.toNat] [b.toNat] (guardRegM q)
      (if deepOffends c.w act d.toNat 0 != 0 then c.illegalOperand 0 (deepOffends c.w act d.toNat 0)
       else if act = 0 then c.retire (advance (lenOf q) (bump c.w)) []
       else if !(gathFails addrs).isEmpty then c.laneFault false (gathFails addrs)
       else if deepPending c.w act d.toNat 0 != 0 || c.w.counts.getD 2 0 == 63 then c.stall
       else
         let keys := (lanesOf act).map (fun l => deepKey (deepIndex c.w d.toNat 0 l) l)
         c.issue 2 (.gath (addrs.map (fun e => (e.1, deepIndex c.w d.toNat 0 e.1, e.2))) (hintM q)) act none 0 (lenOf q)
           { c.w with dPend := c.w.dPend ++ keys.filter (fun k => !c.w.dPend.contains k) } c.s)

end Sys2Proof.Machine
end

