-- ==== Sys2Proof/Machine/Matrix.lean ====
section
/-!
DEFINITION. The accumulator instructions (06 R142, R143; 13 R302-R305) and MXISSUE (06 R132-R134; 14 R333, R334).
-/
namespace Sys2Proof.Machine

/-- The place of an accumulator element in its team's store (06 R142). -/
def accKey (tile row col : Nat) : Nat := tile * 16384 + row * 128 + col

/-- The element that a lane's index names (13 R302). -/
def accIndex (i : Word) : Nat := accKey (bits i.toNat 20 14) (bits i.toNat 13 7) (bits i.toNat 6 0)

/-- The active lanes whose index is out of the budget (13 R303). -/
def accOffends (w : Warp) (act : LaneMask) (budget a : Nat) : LaneMask :=
  maskOf (fun l => act.getLsbD l &&
    (bits (readLane w a l).toNat 31 21 != 0 || decide (budget ≤ bits (readLane w a l).toNat 20 14)))

/-- ACCRD (13 R303): a poisoned element faults. -/
def execAccrd (q : Option APre) (d a : BitVec 7) (s : State) : Out :=
  withCx s fun c =>
    let act := activeA c.w q
    let at_ := fun l => accIndex (readLane c.w a.toNat l)
    c.vchecks act (zeroedA c.w q) [d.toNat] [(d.toNat, 1), (a.toNat, 1)] [a.toNat] [] (guardRegA q)
      (let off := accOffends c.w act c.t.accB a.toNat
       let bad := maskOf (fun l => act.getLsbD l && c.t.accPoison.contains (at_ l))
       if off != 0 then c.illegalOperand 3 off
       else if bad != 0 then c.fault 0x26 3 0 bad
       else c.retire (advance (lenOf q) (writeV (bump c.w) d.toNat act (zeroedA c.w q) (fun l => tget 0 c.t.acc (at_ l)))) [])

/-- ACCWR (13 R303): the highest lane's value stays, and an element's poison goes. -/
def execAccwr (q : Option APre) (d a : BitVec 7) (s : State) : Out :=
  withCx s fun c =>
    let act := activeA c.w q
    c.vchecks act 0 [] [(d.toNat, 1), (a.toNat, 1)] [d.toNat, a.toNat] [] (guardRegA q)
      (let off := accOffends c.w act c.t.accB a.toNat
       let puts := (lanesOf act).map (fun l => (accIndex (readLane c.w a.toNat l), readLane c.w d.toNat l))
       if off != 0 then c.illegalOperand 3 off
       else c.retireIn (putTeam c.s c.core c.w.team { c.t with
         acc := puts.foldl (fun t e => tset t e.1 e.2) c.t.acc
         accPoison := c.t.accPoison.filter (fun k => !puts.any (fun e => e.1 == k)) }) (advance (lenOf q) (bump c.w)))

/-- ACCZ (13 R305): n + 1 tiles from f become +0, without poison. -/
def execAccz (f n : BitVec 7) (s : State) : Out :=
  withCx s fun c =>
    let lo := accKey f.toNat 0 0
    let hi := accKey (f.toNat + n.toNat + 1) 0 0
    if c.t.accB < f.toNat + n.toNat + 1 then c.illegalOperand 3 c.w.path
    else c.retireIn (putTeam c.s c.core c.w.team { c.t with
      acc := tkeep c.t.acc (fun k _ => decide (k < lo ∨ hi ≤ k))
      accPoison := c.t.accPoison.filter (fun k => decide (k < lo ∨ hi ≤ k)) }) (advance 4 (bump c.w))

/-- Word i of a parameter block (06 R132). -/
def blockWord (w : List Word) (i : Nat) : Nat := (w.getD i 0).toNat

/-- The fields of a parameter block obey their limits (06 R132, R133). -/
def blockFields (w : List Word) : Bool :=
  let w0 := blockWord w 0
  let sparse := bitOf w0 7
  let k := blockWord w 5
  let n := blockWord w 6
  let g := blockWord w 9
  let h := blockWord w 10
  decide (bits w0 3 0 ≤ 2) && bits w0 5 4 != 3 && bits w0 11 9 == 0 && !bitOf w0 15 && bits w0 31 22 == 0 &&
    !(bitOf w0 6 && sparse) && decide (blockWord w 1 < 256) && decide (blockWord w 2 < 16) && decide (blockWord w 3 < 2 ^ 14) &&
    decide (1 ≤ blockWord w 4 ∧ blockWord w 4 ≤ 65536) && k % (if sparse then 256 else 128) == 0 && decide (128 ≤ k ∧ k ≤ 32768) &&
    n % 128 == 0 && decide (128 ≤ n ∧ n ≤ 16384) && blockWord w 8 % 32 == 0 && decide (g < 256) && decide (h < 256) &&
    (g == 0xFF) == (bits w0 3 0 == 0) && (h == 0xFF) == (bits w0 3 0 != 2) && decide (blockWord w 13 < 2 ^ 11) &&
    (sparse || blockWord w 13 == 0) && blockWord w 14 % 128 == 0 && decide (blockWord w 14 < 16384) && blockWord w 15 == 0

/-- The element format of the A field of w0 (06 R132). -/
def aFormat (code : Nat) : Fmt :=
  match code with
  | 0 => .e4m3
  | 1 => .e5m2
  | _ => .bf16

/-- The descriptors that a block names are valid and of the right formats (06 R133), and its lists have one dimension (18 R424; log 120). -/
def blockDescs (c : Cx) (w : List Word) : Bool :=
  let a := c.desc (blockWord w 1)
  let list := fun (i : Nat) => i == 0xFF || (descValid (c.desc i) && descFmt (c.desc i) == .i32 && descNdim (c.desc i) == 1)
  descValid a && descFmt a == aFormat (bits (blockWord w 0) 5 4) && list (blockWord w 9) && list (blockWord w 10)

/-- Tiles across N columns (06 R137). -/
def tilesAcross (n : Nat) : Nat := (n + 127) / 128

/-- The regions that a block names lie within its descriptor, its team's budget and the metadata half (06 R133). -/
def blockRegions (c : Cx) (w : List Word) : Bool :=
  let a := c.desc (blockWord w 1)
  let kind := bits (blockWord w 0) 3 0
  let t := bits (blockWord w 3) 6 0
  let r0 := bits (blockWord w 3) 13 7
  let across := tilesAcross (blockWord w 6)
  (kind != 0 || decide (blockWord w 7 + blockWord w 4 ≤ descExt a 1)) &&
    decide (blockWord w 8 + blockWord w 5 ≤ descExt a 0) &&
    (kind == 2 || decide (t + (across - 1) + (r0 + blockWord w 4 - 1) / 128 * across < c.t.accB)) &&
    (!bitOf (blockWord w 0) 7 || decide (blockWord w 13 * 64 + blockWord w 5 * blockWord w 6 / 8 ≤ 131072))

/-- A descriptor that a block names in a word, or none for 0xFF (06 R132). -/
def listDesc (c : Cx) (i : Nat) : Option Desc := if i = 0xFF then none else some (c.desc i)

/-- The operation that a checked block issues (06 R133, R134; 14 R334). -/
def issueMatrix (c : Cx) (len : Nat) (lanes : LaneMask) (w : List Word) : Out :=
  let w0 := blockWord w 0
  let tag := if bitOf w0 14 then some (bits w0 21 16) else none
  if boothFull c.s c.core || c.w.counts.getD 1 0 == 63 then c.stall
  else c.issue 1 (.mxissue w (c.desc (blockWord w 1)) (listDesc c (blockWord w 9)) (listDesc c (blockWord w 10))
    (meGen c.s (clusterOf c.core) (blockWord w 2))) lanes tag (bits w0 13 12) len c.w c.s

/-- MXISSUE (06 R132-R134; 14 R334): one active lane gives the block. DESIGN CHOICE (log 121): of several checks that fail, the fields' come
first, then the descriptors', then the regions' and the tag's. -/
def execMxissue (q : Option APre) (a : BitVec 7) (s : State) : Out :=
  withCx s fun c =>
    let act := activeA c.w q
    let rs := groupRegs a.toNat 16
    c.vchecks act 0 [] (rs.map (fun r => (r, 1))) rs [] (guardRegA q)
      (match lanesOf act with
        | [l] =>
          let w := rs.map (fun r => readLane c.w r l)
          let w0 := blockWord w 0
          if !blockFields w then c.illegalOperand 1 act
          else if !blockDescs c w then c.illegalOperand 2 act
          else if !blockRegions c w then c.illegalOperand 1 act
          else if bitOf w0 14 && !tagOk c.t (bits w0 21 16) then c.illegalOperand 1 act
          else issueMatrix c (lenOf q) act w
        | _ => c.illegalOperand 1 c.w.path)

end Sys2Proof.Machine
end

