-- ==== Sys2Proof/Machine/System.lean ====
section
/-!
DEFINITION. Special registers (14 R348-R350; 05 R104, R105, R112, R113; 10 R223) and the allotment instructions (16 R391, R392).
-/
namespace Sys2Proof.Machine

/-- Three coordinates in fields of 21 bits (14 R349). -/
def pack21 (x : Nat × Nat × Nat) : DWord := BitVec.ofNat 64 (x.1 % 2 ^ 21 + x.2.1 % 2 ^ 21 * 2 ^ 21 + x.2.2 % 2 ^ 21 * 2 ^ 42)

/-- Three extents in fields of 16 bits (14 R349). -/
def pack16 (x : Nat × Nat × Nat) : DWord := BitVec.ofNat 64 (x.1 % 2 ^ 16 + x.2.1 % 2 ^ 16 * 2 ^ 16 + x.2.2 % 2 ^ 16 * 2 ^ 32)

/-- ALLOT (14 R349). -/
def allotOf (w : Warp) : DWord := BitVec.ofNat 64 (w.areg + w.deep * 2 ^ 16 + w.amax * 2 ^ 32 + w.dmax * 2 ^ 40)

/-- A bank context of the running warp's core. -/
def Cx.bank (c : Cx) : Bank := (getCore c.s c.core).bank c.w.bank

/-- The context of the running warp. -/
def Cx.ctx (c : Cx) : Ctx := getCtx c.s c.w.slice c.w.ctx

/-- The count state of a class for the running warp (05 R112). -/
def Cx.exc (c : Cx) (cls : Nat) : ExcState := excGet c.s c.core c.w.slice c.w.ctx cls

/-- The special registers that a read does not change (14 R348); CLK is apart. -/
def specialValue (c : Cx) (sel : Nat) : DWord :=
  match sel with
  | 0x000 => BitVec.ofNat 64 c.w.grant
  | 0x001 => BitVec.ofNat 64 ((lowest c.w.path).getD 0)
  | 0x002 => BitVec.ofNat 64 c.w.warpix
  | 0x003 => pack21 c.t.coord
  | 0x004 => pack16 c.t.shape
  | 0x005 => pack21 c.t.gridDim
  | 0x006 => if c.w.producer then 1 else 0
  | 0x007 => wswOf c.w
  | 0x008 => c.w.nmode.setWidth 64
  | 0x009 => c.w.trapBase
  | 0x00A => c.w.trapCause
  | 0x00B => c.w.trapPc
  | 0x00C => c.w.trapLanes
  | 0x00D => c.w.trapAddr
  | 0x00F => c.w.retired
  | 0x030 => c.bank.tagRdy &&& tagRange c.t
  | 0x031 => ocntOf c.w
  | 0x032 => allotOf c.w
  | 0x033 => BitVec.ofNat 64 c.w.ctx
  | _ =>
    let cls := sel % 8
    match sel / 8 with
    | 2 => excReg (c.exc cls)
    | 3 => BitVec.ofNat 64 (c.ctx.thr.getD cls 0)
    | 4 => winReg (c.exc cls) (c.ctx.win.getD cls 0)
    | _ => actReg (c.exc cls) (c.ctx.act.getD cls 0)

/-- The words of the warp table that a read of a special register reads (03 R53, R54). -/
def specialWords (sel : Nat) : List Nat :=
  match sel with
  | 0x007 => [wswWord]
  | 0x008 => [nmodeWord]
  | 0x031 => [ocntWord]
  | 0x032 => [allotWord]
  | _ => []

/-- SREAD (14 R350). CLK has moved on by a free number of cycles since it was last read (log 2). -/
def execSread (d : BitVec 6) (sel : BitVec 13) (s : State) : Out :=
  withCx s fun c => c.uchecks (specialWords sel.toNat) <|
    if sel = 0x00E then
      let k := getCore c.s c.core
      let clk := k.clk + Config.elapsed c.s.fresh
      c.retireIn { putCore c.s c.core { k with clk := clk } with fresh := c.s.fresh + 1 } (advance 4 (writeS (bump c.w) d.toNat clk))
    else c.retire (advance 4 (writeS (bump c.w) d.toNat (specialValue c sel.toNat))) []

/-- A value that TRAPBASE and TRAPPC accept (10 R223). -/
def handlerOk (x : DWord) : Bool := canonical x && x.toNat % 4 == 0

/-- A value that NMODE accepts (05 R105). -/
def nmodeOk (x : DWord) : Bool :=
  decide (x.toNat < 2 ^ 32) && (List.range 8).all (fun i => decide (x.toNat / 2 ^ (4 * i) % 8 ≤ 4))

/-- A value that WSW accepts (10 R223): the reserved bits are zero. -/
def wswOk (x : DWord) : Bool := x &&& 0xFFFFFFFFFFFFC080 == 0

/-- WSW written (10 R223, 14 R350): setting TM makes the path's lanes the handler's; clearing it makes every path selectable. -/
def writeWsw (w : Warp) (x : DWord) : Warp :=
  let w1 := { w with scopemis := x.getLsbD 4, grantChanged := x.getLsbD 3, step := x.getLsbD 0 }
  if x.getLsbD 1 then if w.tm then w1 else { w1 with tm := true, handlers := w.path }
  else { w1 with tm := false, handlers := 0, inQuiesce := false }

/-- An SWRITE accepts a value in a register (14 R350). -/
def specialAccepts (sel : Nat) (x : DWord) : Bool :=
  match sel with
  | 0x007 => wswOk x
  | 0x008 => nmodeOk x
  | 0x009 => handlerOk x
  | 0x00B => handlerOk x
  | _ =>
    match sel / 8 with
    | 2 => decide (x.toNat < 2 ^ 32)
    | 3 => decide (x.toNat < 2 ^ 32)
    | 4 => decide (x.toNat < 2 ^ 48)
    | 5 => decide (x.toNat < 2 ^ 3)
    | _ => false

/-- Words of the warp table written, so that they carry no poison (03 R54). -/
def cleanWords (w : Warp) (ks : List Nat) : Warp := { w with wtPoison := w.wtPoison.filter (fun k => !ks.contains k) }

/-- A warp's own register written by SWRITE (14 R350). -/
def writeOwn (w : Warp) (sel : Nat) (x : DWord) : Warp :=
  match sel with
  | 0x007 => settle (writeWsw (cleanWords w [wswWord, wswWord + 1]) x)
  | 0x008 => { cleanWords w [nmodeWord] with nmode := x.setWidth 32 }
  | 0x009 => { w with trapBase := x }
  | _ => { w with trapPc := x }

/-- COUNT written (05 R113): below THRESH it clears FIRED; from below to THRESH or above it reaches the threshold. -/
def writeCount (e : ExcState) (n : Nat) : ExcState × Bool :=
  if n < e.thr ∨ e.thr = 0 then ({ e with count := n, fired := e.fired && e.thr == 0 }, false)
  else
    let crosses := decide (e.count < e.thr) && !e.fired
    ({ e with count := n, fired := e.fired || crosses }, crosses)

/-- A setting of the context and of the writing core written (05 R112, R113): a write of WINDOW starts a new window. -/
def writeSetting (c : Cx) (sel : Nat) (x : DWord) (s : State) : State :=
  let cls := sel % 8
  let e := excGet s c.core c.w.slice c.w.ctx cls
  let k := getCtx s c.w.slice c.w.ctx
  match sel / 8 with
  | 2 =>
    let (e', crosses) := writeCount e x.toNat
    let s1 := excPut s c.core c.w.ctx cls e'
    if crosses then takeAction s1 c.core c.slot c.w.slice c.w.ctx cls e.act else s1
  | 3 => excPut (putCtx s c.w.slice c.w.ctx { k with thr := setAt k.thr cls x.toNat }) c.core c.w.ctx cls { e with thr := x.toNat }
  | 4 =>
    let n := x.toNat % 2 ^ 24
    excPut (putCtx s c.w.slice c.w.ctx { k with win := setAt k.win cls n }) c.core c.w.ctx cls { e with win := n, since := 0 }
  | _ =>
    let n := x.toNat % 4
    excPut (putCtx s c.w.slice c.w.ctx { k with act := setAt k.act cls n }) c.core c.w.ctx cls { e with act := n }

/-- The cores of a context other than one act on their old settings until these reach them (05 R112). -/
def keepSettings (s : State) (core sl ctx cls : Nat) : State :=
  (coresOf s sl).foldl (fun s n => if n = core then s else excPut s n ctx cls (excGet s n sl ctx cls)) s

/-- What an SWRITE writes to an exception register (05 R112, R115): after the events of the retirements that share its cycle. -/
def writeLate (c : Cx) (r : Nat) (x : DWord) (s : State) : State :=
  let k := getCore s c.core
  if k.cycle.isSome then putCore s c.core { k with late := k.late ++ [(c.slot, r, x)] } else writeSetting c r x s

/-- The end of a cycle that several retirements have shared (05 R115): what their SWRITEs write, then the ends of windows. -/
def closeCycle (s : State) (core sl : Nat) : State :=
  let k := getCore s core
  let s1 := k.late.foldl (fun s e => match getWarp s core e.1 with
    | none => s
    | some w => writeSetting { s := s, core := core, slot := e.1, w := w, t := getTeam s core w.team } e.2.1 e.2.2 s)
    (putCore s core { k with cycle := none, late := [] })
  let s2 := (k.cycle.getD []).foldl (fun s ctx => modWindows tickWindow s core sl ctx) s1
  (k.cycle.getD []).eraseDups.foldl (fun s ctx => modWindows endWindow s core sl ctx) s2

/-- SWRITE (14 R350). -/
def execSwrite (a : BitVec 6) (sel : BitVec 13) (s : State) : Out :=
  withCx s fun c => c.uchecks [a.toNat]
    (let x := readS c.w a.toNat
     let r := sel.toNat
     if !specialAccepts r x then c.illegalOperand 3 c.w.path
     else if r < 0x010 then c.retire (writeOwn (advance 4 (bump c.w)) r x) []
     else .next (retireWith c (keepSettings c.s c.core c.w.slice c.w.ctx (r % 8)) (advance 4 (bump c.w)) [] (writeLate c r x)))

/-- Slow-file bytes of a warp (02 R21). -/
def warpBytes (w : Warp) : Nat := (w.areg + w.deep) * w.grant * 4

/-- Slow-file bytes that a core's resident warps hold, in either bank context (02 R21). -/
def slowHeld (c : Core) : Nat := (c.warps.map (fun e => warpBytes e.2)).sum

/-- Bytes of a core's slow file (02 R21). -/
def slowBytes : Nat := 3145728

/-- The warp takes an active slot and its part of the fast file (03 R62): one whose lanes have all exited, or that is held, takes
none. -/
def inFast (w : Warp) : Bool :=
  match w.loc with
  | .active _ => liveLanes w != 0 && !w.held
  | .waiting _ => false
  | .parked _ _ => false

/-- Fast-file quarters that a bank context's active warps hold (03 R42). -/
def fastHeld (c : Core) (bank : Nat) : Nat :=
  (c.warps.map (fun e => if e.2.bank = bank && inFast e.2 then (e.2.areg + 32) * e.2.grant / 16 else 0)).sum

/-- Quarters of a fast-file bank (03 R41). -/
def fastQuarters : Nat := 5120

/-- The v registers from n up released (03 R56). -/
def dropV (w : Warp) (n : Nat) : Warp :=
  { w with areg := n, v := tkeep w.v (fun r _ => decide (r < n)), vPoison := tkeep w.vPoison (fun r _ => decide (r < n)) }

/-- The deep-file entries from n up released (03 R56). -/
def dropDeep (w : Warp) (n : Nat) : Warp :=
  { w with deep := n, d := tkeep w.d (fun k _ => decide (k < n * 64)), dPoison := w.dPoison.filter (fun k => decide (k < n * 64)) }

/-- VSHRINK (16 R392): file 0 v, 1 deep. -/
def execVshrink (f : BitVec 1) (k : BitVec 5) (s : State) : Out :=
  withCx s fun c =>
    let n := if f = 0 then 32 + 8 * k.toNat else 32 * k.toNat
    let cur := if f = 0 then c.w.areg else c.w.deep
    if cur < n then c.illegalOperand 3 c.w.path
    else if f = 1 && c.w.dPend.any (fun e => decide (n * 64 ≤ e)) then c.stall
    else c.retire (advance 4 (cleanWords (if f = 0 then dropV (bump c.w) n else dropDeep (bump c.w) n) [allotWord])) []

/-- VGROW (16 R392). -/
def execVgrow (f : BitVec 1) (k : BitVec 5) (s : State) : Out :=
  withCx s fun c =>
    let n := if f = 0 then 32 + 8 * k.toNat else 32 * k.toNat
    let cur := if f = 0 then c.w.areg else c.w.deep
    let most := if f = 0 then c.w.amax else c.w.dmax
    let core := getCore c.s c.core
    if n < cur || decide (most < n) then c.illegalOperand 3 c.w.path
    else if slowBytes < slowHeld core + (n - cur) * c.w.grant * 4 then c.stall
    else if f = 0 && inFast c.w && decide (fastQuarters < fastHeld core c.w.bank + (n - cur) * c.w.grant / 16) then c.stall
    else c.retire (advance 4 (cleanWords (if f = 0 then { bump c.w with areg := n } else { bump c.w with deep := n }) [allotWord])) []

end Sys2Proof.Machine
end

