-- ==== Sys2Proof/Machine/Waits.lean ====
section
/-!
DEFINITION. Waits and completion tags (07 R164-R167; 14 R351, R352; 16 R413-R415).
-/
namespace Sys2Proof.Machine

/-- The failure that a WAITC of a class and a number covers (07 R164, R167): the recorded one, where more than n operations have
been issued since and with it. -/
def coveredError (w : Warp) (cls n : Nat) : Option AsyncErr :=
  (w.asyncErrs.find? (fun e => e.cls == cls)).filter
    (fun e => decide (n < (w.issues.getD cls 0 + 2 ^ 32 - e.seq % 2 ^ 32) % 2 ^ 32))

/-- The engine of a failed operation joins a stop in progress when a wait surfaces the failure (07 R167, 10 R231); a gather unit writes no
record for one (10 R235). -/
def joinSurfaced (s : State) (w : Warp) (e : AsyncErr) : State := if e.cls = 2 then s else joinStop s w.slice w.ctx e.unit

/-- A covering wait takes the fault of a failed operation (07 R167), which the stop record of its engine names. -/
def surface (c : Cx) (e : AsyncErr) (cls : Nat) (lanes : LaneMask) : Out :=
  takeFault { c with w := { c.w with concerned := some e }, s := joinSurfaced c.s c.w e } 0x27 e.err cls false lanes e.addr e.ia

/-- WAITC (16 R413), whose return orders loads (03 R48). -/
def execWaitc (k : BitVec 2) (n : BitVec 6) (s : State) : Out :=
  withCx s fun c => c.uchecks [ocntWord] <|
    if n.toNat < c.w.counts.getD k.toNat 0 then c.stall
    else
      match coveredError c.w k.toNat n.toNat with
      | some e => surface c e k.toNat (e.lanes.getD c.w.path)
      | none => c.retire (advance 4 (orderLoads (bump c.w))) []

/-- The failure at the lowest set tag of a mask that carries one (16 R415). -/
def tagError (b : Bank) (m : DWord) : Option AsyncErr :=
  (List.range 64).findSome? (fun n => if m.getLsbD n && b.tagRdy.getLsbD n then tfind b.tagErrs n else none)

/-- WAITT (16 R415): with l all of the mask's tags, without it any. Its return orders loads (03 R48). -/
def execWaitt (d a : BitVec 6) (l : BitVec 1) (s : State) : Out :=
  withCx s fun c => c.uchecks [a.toNat]
    (let m := readS c.w a.toNat
     let got := c.bank.tagRdy &&& m
     if m &&& ~~~tagRange c.t != 0 then c.illegalOperand 3 c.w.path
     else if m = 0 then c.retire (advance 4 (writeS (orderLoads (bump c.w)) d.toNat 0)) []
     else if if l = 1 then got != m else got == 0 then c.stall
     else
       match tagError c.bank m with
       | some e => surface c e e.cls c.w.path
       | none => c.retire (advance 4 (writeS (orderLoads (bump c.w)) d.toNat got)) [])

/-- TFIRST (14 R352), which orders loads (03 R48). -/
def execTfirst (d : BitVec 6) (s : State) : Out :=
  withCx s fun c =>
    c.retire (advance 4 (writeS (orderLoads (bump c.w)) d.toNat (BitVec.ofNat 64 ((lowest (c.bank.tagRdy &&& tagRange c.t)).getD 64)))) []

/-- A bank context of a core changed. -/
def modBank (s : State) (core bank : Nat) (f : Bank → Bank) : State :=
  putCore s core ((getCore s core).putBank bank (f ((getCore s core).bank bank)))

/-- Tags cleared, with what is kept beside them (16 R415). -/
def clearTags (b : Bank) (m : DWord) : Bank :=
  { b with tagRdy := b.tagRdy &&& ~~~m, tagErrs := tkeep b.tagErrs (fun n _ => !m.getLsbD n) }

/-- TCLR (14 R352). -/
def execTclr (a : BitVec 6) (s : State) : Out :=
  withCx s fun c => c.uchecks [a.toNat]
    (let m := readS c.w a.toNat
     if m &&& ~~~tagRange c.t != 0 then c.illegalOperand 3 c.w.path
     else c.retireIn (modBank c.s c.core c.w.bank (fun b => clearTags b m)) (advance 4 (bump c.w)))

end Sys2Proof.Machine
end

