-- ==== Sys2Proof/WellFormed.lean ====
section
/-!
DEFINITION. Which terms of Instr stand for an instruction word the spec calls legal (04 R68, R74-R82) or for an event of a
component the module has (01 R7-R8). A term that is not well formed has no encoding of its own.
-/
namespace Sys2Proof

/-- The prefix fields an instruction's major uses (04 R76): g guard only; gz guard and zeroing; c a fourth operand; r rounding
and saturation. -/
inductive PreUse where
  | g
  | gz
  | gzc
  | gzr
  | gzrc
  deriving DecidableEq, Repr

/-- The fourth operand of the prefix is used (04 R76). -/
def PreUse.hasVc : PreUse → Bool
  | .gzc => true
  | .gzrc => true
  | .g => false
  | .gz => false
  | .gzr => false

/-- The rounding and saturation overrides of the prefix are used (04 R76). -/
def PreUse.hasRs : PreUse → Bool
  | .gzr => true
  | .gzrc => true
  | .g => false
  | .gz => false
  | .gzc => false

/-- The zeroing bit of the prefix is used (04 R76). -/
def PreUse.hasZ : PreUse → Bool
  | .g => false
  | .gz => true
  | .gzc => true
  | .gzr => true
  | .gzrc => true

/-- An arithmetic prefix has no reserved value and no non-zero field its instruction does not use (04 R74-R76). -/
def APre.legal (u : PreUse) : Option APre → Bool
  | none => true
  | some p => p.rnd.toNat ≤ 5 ∧ p.sat.toNat ≤ 2 ∧ (u.hasZ = false → p.zero = false) ∧
      (u.hasRs = false → p.rnd = 0 ∧ p.sat = 0) ∧ (u.hasVc = false → p.vc = 0)

/-- A memory prefix has no reserved scope and an order its instruction accepts (04 R74, R78). -/
def MPre.legal (orders : List Nat) : Option MPre → Bool
  | none => true
  | some p => p.scope.toNat ≤ 6 ∧ p.order.toNat ∈ orders

/-- VCVT's format pair and slot (04 R79): formats 0 f32, 1 bf16, 2 f16, 3 e4m3, 4 e5m2, 5 i32, 6 n32, 7 i8, 8 n8, 9 i16, 10 n16;
x takes the source from a slot, i inserts into one, s is the slot. -/
abbrev cvtLegal (c t x i s : Nat) : Prop :=
  c ≠ 7 ∧ t ≤ 10 ∧ c ≠ t ∧ ¬(x = 1 ∧ i = 1) ∧
  (x = 1 → 1 ≤ c ∧ c ≤ 4 ∧ (c ≤ 2 → s ≤ 1)) ∧
  (i = 1 → 1 ≤ t ∧ t ≠ 5 ∧ t ≠ 6 ∧ (t = 1 ∨ t = 2 ∨ t = 9 ∨ t = 10 → s ≤ 1)) ∧
  (x = 0 → i = 0 → s = 0)

/-- A unit the module has (01 R7): 128 cores, 32 matrix engines, 32 copy engines, 2 collective engines. -/
def EngineRef.legal : EngineRef → Bool
  | .core n => n < 128
  | .me n => n < 32
  | .copy n => n < 32
  | .coll d => d < 2

/-- A host read or write lies in one 128-byte line: of the module (07 R168), or of host memory, whose 64-bit addresses stand at 2^51 and
above (11 R258, 12 R288). -/
def HostReq.legal : HostReq → Bool
  | .read pa size => 1 ≤ size ∧ pa % 128 + size ≤ 128 ∧ pa < 2 ^ 51 + 2 ^ 64
  | .write pa bytes => 1 ≤ bytes.length ∧ pa % 128 + bytes.length ≤ 128 ∧ pa < 2 ^ 51 + 2 ^ 64
  | .offStream slice => slice < 16
  | .endSession slice => slice < 18

/-- A peer's access lies in one 128-byte line; an atomic is one of 15 R378's, aligned to its width (08 R192). -/
def PeerReq.legal : PeerReq → Bool
  | .read ia size => 1 ≤ size ∧ ia % 128 + size ≤ 128 ∧ ia < 2 ^ 52
  | .write ia bytes => 1 ≤ bytes.length ∧ ia % 128 + bytes.length ≤ 128 ∧ ia < 2 ^ 52
  | .atomic ia op _ _ _ => op ≤ 11 ∧ ia % (if op = 11 then 8 else 4) = 0 ∧ ia < 2 ^ 52

/-- A register write names an 8-byte aligned offset of a window the module has (11 R248, R260). -/
def RegTarget.legal : RegTarget → Bool
  | .pf0 _ offset => offset % 8 = 0
  | .vf slice offset => slice < 16 ∧ offset % 8 = 0
  | .msix slice offset => slice < 16 ∧ offset % 8 = 0

/-- The term stands for a legal instruction word (with its prefix or literal), or for an event of a component that exists. -/
def wellFormed : Instr → Bool
  | .vadd q _ _ _ => APre.legal .gz q
  | .vsub q _ _ _ => APre.legal .gz q
  | .vmul q _ _ _ => APre.legal .gz q
  | .vmulhI q _ _ _ => APre.legal .gz q
  | .vmulhN q _ _ _ => APre.legal .gz q
  | .vmad q _ _ _ => APre.legal .gzc q
  | .vminI q _ _ _ => APre.legal .gz q
  | .vminN q _ _ _ => APre.legal .gz q
  | .vmaxI q _ _ _ => APre.legal .gz q
  | .vmaxN q _ _ _ => APre.legal .gz q
  | .vabs q _ _ => APre.legal .gz q
  | .vclz q _ _ => APre.legal .gz q
  | .vpopc q _ _ => APre.legal .gz q
  | .vand q _ _ _ => APre.legal .gz q
  | .vor q _ _ _ => APre.legal .gz q
  | .vxor q _ _ _ => APre.legal .gz q
  | .vshl q _ _ _ => APre.legal .gz q
  | .vshr q _ _ _ => APre.legal .gz q
  | .vsar q _ _ _ => APre.legal .gz q
  | .vbfeI q _ _ _ => APre.legal .gz q
  | .vbfeN q _ _ _ => APre.legal .gz q
  | .vbfi q _ _ _ => APre.legal .gzc q
  | .vaddi q _ _ _ => APre.legal .gz q
  | .vandi q _ _ _ => APre.legal .gz q
  | .vori q _ _ _ => APre.legal .gz q
  | .vxori q _ _ _ => APre.legal .gz q
  | .vshlImm q _ _ _ => APre.legal .gz q
  | .vshrImm q _ _ _ => APre.legal .gz q
  | .vsarImm q _ _ _ => APre.legal .gz q
  | .vmovi q _ _ => APre.legal .gz q
  | .vfadd q _ _ _ => APre.legal .gzr q
  | .vfsub q _ _ _ => APre.legal .gzr q
  | .vfmul q _ _ _ => APre.legal .gzr q
  | .vffma q _ _ _ => APre.legal .gzrc q
  | .vfmin q _ _ _ => APre.legal .gz q
  | .vfmax q _ _ _ => APre.legal .gz q
  | .vrcp q _ _ => APre.legal .gzr q
  | .vrsq q _ _ => APre.legal .gzr q
  | .vsqrt q _ _ => APre.legal .gzr q
  | .vexp2 q _ _ => APre.legal .gzr q
  | .vlog2 q _ _ => APre.legal .gzr q
  | .vsinp q _ _ => APre.legal .gzr q
  | .vact q _ _ => APre.legal .gzr q
  | .vpkadd q _ _ _ _ => APre.legal .gzr q
  | .vpkmul q _ _ _ _ => APre.legal .gzr q
  | .vpkfma q _ _ _ _ => APre.legal .gzrc q
  | .vcvt q _ _ c t x i s => APre.legal .gzr q ∧ cvtLegal c.toNat t.toNat x.toNat i.toNat s.toNat
  | .vcmp q t _ _ _ c => APre.legal .gz q ∧ (t.toNat ≤ 2 ∧ c.toNat ≤ 7 ∧ (6 ≤ c.toNat → t.toNat = 2))
  | .vsel q _ _ _ _ => APre.legal .gz q
  | .vmov q _ _ => APre.legal .gz q
  | .vmovLo q _ _ => APre.legal .gz q
  | .vmovHi q _ _ => APre.legal .gz q
  | .vmovLane q _ => APre.legal .gz q
  | .vmovTid q _ => APre.legal .gz q
  | .plog q _ _ _ _ => APre.legal .gz q
  | .elect q _ => APre.legal .gz q
  | .vld q _ _ _ z u => MPre.legal [0, 1] q ∧ (z.toNat ≤ 6 ∧ u.toNat ≤ 2)
  | .vst q _ _ _ z u => MPre.legal [0, 2] q ∧ (z.toNat ≤ 4 ∧ u.toNat ≤ 2)
  | .vatom q _ _ _ p => MPre.legal [0, 1, 2, 3] q ∧ p.toNat ≤ 11
  | .gath q _ _ _ u => MPre.legal [0] q ∧ u.toNat ≤ 2
  | .drdBlk q _ _ _ => APre.legal .gz q
  | .drdTrp q _ _ _ => APre.legal .gz q
  | .dwr q _ _ _ => APre.legal .gz q
  | .shfl q _ _ _ _ _ => APre.legal .gz q
  | .vred q _ _ _ _ => APre.legal .gz q
  | .vscan q _ _ _ m => APre.legal .gz q ∧ m.toNat ≤ 2
  | .vote q d _ s m => APre.legal .gz q ∧ (¬(m.toNat = 0 ∧ s.toNat = 2 ∧ d.toNat % 2 = 1))
  | .bcast q _ _ _ _ => APre.legal .gz q
  | .mxissue q _ => APre.legal .g q
  | .accrd q _ _ => APre.legal .gz q
  | .accwr q _ _ => APre.legal .gz q
  | .jenr _ _ => true
  | .jwait _ => true
  | .brv _ _ _ => true
  | .exit q => APre.legal .g q
  | .spawn q _ _ => APre.legal .g q
  | .uadd _ _ _ => true
  | .usub _ _ _ => true
  | .umul _ _ _ => true
  | .umulhI _ _ _ => true
  | .umulhN _ _ _ => true
  | .uand _ _ _ => true
  | .uor _ _ _ => true
  | .uxor _ _ _ => true
  | .ushl _ _ _ => true
  | .ushr _ _ _ => true
  | .usar _ _ _ => true
  | .uminI _ _ _ => true
  | .uminN _ _ _ => true
  | .umaxI _ _ _ => true
  | .umaxN _ _ _ => true
  | .umov _ _ => true
  | .uaddi _ _ _ => true
  | .uandi _ _ _ => true
  | .uori _ _ _ => true
  | .uxori _ _ _ => true
  | .ushlImm _ _ _ => true
  | .ushrImm _ _ _ => true
  | .usarImm _ _ _ => true
  | .umovi _ _ => true
  | .ulit _ _ _ => true
  | .ufromv _ _ _ => true
  | .uld _ _ z _ => z.toNat ≤ 6
  | .ust _ _ z _ => z.toNat ≤ 3
  | .uatom d _ p s _ => p.toNat ≤ 11 ∧ s.toNat ≤ 6 ∧ (p.toNat = 9 → d.toNat % 2 = 0 ∧ d.toNat ≠ 0)
  | .fence s k => 1 ≤ s.toNat ∧ s.toNat ≤ 6 ∧ k.toNat ≤ 2
  | .ub c _ _ _ => c.toNat ≤ 5
  | .bra _ => true
  | .call _ => true
  | .jmpi a => a ≠ 63
  | .ret => true
  | .bararr _ _ => true
  | .barwait _ _ => true
  | .barsync _ _ => true
  | .setw _ _ _ => true
  | .vshrink f c => c.toNat ≤ (if f.toNat = 1 then 8 else 12)
  | .vgrow f c => c.toNat ≤ (if f.toNat = 1 then 8 else 12)
  | .sread _ s => s.toNat ≤ 0x33
  | .swrite _ s => s.toNat ≤ 0x33
  | .trap _ => true
  | .tret _ => true
  | .bkpt => true
  | .nop => true
  | .waitc _ _ => true
  | .waitt _ _ _ => true
  | .tfirst _ => true
  | .tclr _ => true
  | .tdset _ _ _ => true
  | .tdget _ _ _ => true
  | .tdinv _ => true
  | .tdinvAll => true
  | .tdpool _ _ => true
  | .cpy _ _ b => 1 ≤ b.toNat ∧ b.toNat ≤ 61
  | .wload _ _ _ => true
  | .mxmeta _ _ => true
  | .accld _ _ _ => true
  | .accst _ _ _ => true
  | .accz f n => f.toNat + n.toNat ≤ 127
  | .coll _ b => 1 ≤ b.toNat ∧ b.toNat ≤ 61
  | .actld _ => true
  | .oapp _ _ _ => true
  | .odecl _ => true
  | .mbxwait _ => true
  | .mbxpop _ _ => true
  | .cwb _ _ s => 2 ≤ s.toNat ∧ s.toNat ≤ 6
  | .cinv _ _ s => 2 ≤ s.toNat ∧ s.toNat ≤ 6
  | .pref _ _ l => l.toNat ≤ 2
  | .pathYield core slot => core < 128 ∧ slot < 56
  | .warpMoveIn core bank => core < 128 ∧ bank < 2
  | .warpPark core slot => core < 128 ∧ slot < 56
  | .parkedLineArrival core slot => core < 128 ∧ slot < 56
  | .warpMoveOutIdle core slot => core < 128 ∧ slot < 56
  | .warpMoveOutTenure core slot => core < 128 ∧ slot < 56
  | .bankSwap core => core < 128
  | .backgroundSpill core bank => core < 128 ∧ bank < 2
  | .deferredError => true
  | .spawnBinTimer core bin => core < 128 ∧ bin < 16
  | .gatherComplete _ => true
  | .copyBurst _ => true
  | .asyncCompletionReport _ => true
  | .permitRequest _ => true
  | .permitGrant die => die < 2
  | .permitWaitLimit die => die < 2
  | .mePassStart me => me < 32
  | .mePassEnd me _ => me < 32
  | .weightLoad _ => true
  | .actldFlip _ => true
  | .collStep _ _ _ => true
  | .collTimeout _ => true
  | .engineStop slice ctx unit => slice < 16 ∧ ctx < 16 ∧ unit.legal
  | .coreReset slice _ => slice < 16
  | .coreControlError core => core < 128
  | .quiesce slice ctx => slice < 16 ∧ ctx < 16
  | .quiesceTrapDelivery slice ctx core => slice < 16 ∧ ctx < 16 ∧ core < 128
  | .quiesceComplete slice ctx => slice < 16 ∧ ctx < 16
  | .quiesceBudgetExpire slice ctx => slice < 16 ∧ ctx < 16
  | .exportCtx slice ctx => slice < 16 ∧ ctx < 16
  | .pagex slice ctx => slice < 16 ∧ ctx < 16
  | .importCtx slice ctx => slice < 16 ∧ ctx < 16
  | .pagei slice ctx => slice < 16 ∧ ctx < 16
  | .resume slice ctx => slice < 16 ∧ ctx < 16
  | .dropCtx slice ctx => slice < 16 ∧ ctx < 16
  | .sliceReset slice => slice < 16
  | .flrVf slice => slice < 16
  | .flrPf0 _ => true
  | .s2Invalidation slice => slice < 16
  | .s1Invalidation slice _ => slice < 16
  | .invalidationComplete slice _ => slice < 16
  | .contextCreate slice ctx => slice < 16 ∧ ctx < 16
  | .contextRemove slice ctx => slice < 16 ∧ ctx < 16
  | .evtailWrite slice _ => slice < 16
  | .evstatWrite slice _ => slice < 16
  | .mailboxEnable slice mbox _ => slice < 16 ∧ mbox < 64
  | .mailboxDisable slice mbox => slice < 16 ∧ mbox < 64
  | .kick slice mbox => slice < 16 ∧ mbox < 64
  | .sealRetry slice mbox => slice < 16 ∧ mbox < 64
  | .fetchContinue slice mbox => slice < 16 ∧ mbox < 64
  | .launchRecord slice mbox => slice < 16 ∧ mbox < 64
  | .waitRecord slice mbox => slice < 16 ∧ mbox < 64
  | .waitConditionMet slice mbox => slice < 16 ∧ mbox < 64
  | .signalRecord slice mbox => slice < 16 ∧ mbox < 64
  | .messageRecord slice mbox => slice < 16 ∧ mbox < 64
  | .messageDelivery slice mbox => slice < 16 ∧ mbox < 64
  | .recordStart slice mbox => slice < 16 ∧ mbox < 64
  | .recordComplete slice mbox => slice < 16 ∧ mbox < 64
  | .teamPlacement slice => slice < 16
  | .placementReservation slice _ => slice < 16
  | .residentGridStart slice _ => slice < 16
  | .teamExit core _ => core < 128
  | .gridComplete slice _ => slice < 16
  | .clusterRetire slice _ => slice < 16
  | .powerUp => true
  | .coldReset => true
  | .deviceReset _ _ => true
  | .perst _ => true
  | .portLinkReturn _ => true
  | .hostAccessTimeout _ => true
  | .sensorUpdate index _ => index < 25
  | .powerWindowEnd _ => true
  | .laysemRead _ => true
  | .laysemWrite _ _ => true
  | .prepare _ _ => true
  | .commit _ _ => true
  | .abort _ _ => true
  | .layoutPhaseEnd => true
  | .olsanWatchdogReset => true
  | .fwVerify _ _ => true
  | .fwActivate _ _ => true
  | .dbgnonceRead _ => true
  | .debugUnlock _ _ => true
  | .healthReport slice => slice < 16
  | .keyRotation slice => slice < 16
  | .keySweepComplete slice => slice < 16
  | .migrationKeyProvision slice _ => slice < 16
  | .keyExchange slice _ => slice < 18
  | .getMeasurements slice => slice < 18
  | .lockInterfaceRequest slice => slice < 16
  | .startInterfaceRequest slice => slice < 16
  | .stopInterfaceRequest slice => slice < 16
  | .atsInvalidation slice _ => slice < 16
  | .xlateRequest slice => slice < 16
  | .xlateRelease slice => slice < 16
  | .routingEntryWrite slice index _ => slice < 16 ∧ index < 64
  | .ualinkRequest slice _ req => slice < 16 ∧ req.legal
  | .hostRequest _ req => req.legal
  | .ualinkPortDown link => link < 8
  | .deviceError => true
  | .registerWrite target _ => target.legal
  | .illegalInstruction _ => true
  | .portLinkDown _ => true
  | .storeBufferDrain core _ _ => core < 128
  | .memoryUncorrectableError line _ => line % 128 = 0 ∧ line < 2 ^ 52
  | .registerEccError core slot _ _ => core < 128 ∧ slot < 56
  | .routingKeyInstall slice index _ => slice < 16 ∧ index < 64
  | .settingReachesCore core ctx cls => core < 128 ∧ ctx < 16 ∧ cls < 8

end Sys2Proof
end

