-- ==== Sys2Proof/Decode.lean ====
section
/-!
DEFINITION. Decoding instruction words (04 R67-R83) and encoding them again. Words are natural numbers below 2^32, so fields
are quotients and remainders. decode is total: every pair of words gives an instruction or a named reason.
-/
namespace Sys2Proof

/-- Why a word is no instruction (04 R68, R75, R82). Each raises the illegal-instruction trap of 10 R222, with the
sub-code of `Illegal.sub`. -/
inductive Illegal where
  /-- A major value with no operation (SUB 0). -/
  | reservedMajor
  /-- A reserved fn, mode, op or field value, or a non-zero must-be-zero field (SUB 0). -/
  | reservedField
  /-- A prefix with a reserved field value (SUB 1). -/
  | malformedFields
  /-- A prefix with a non-zero field, or an order, that the following instruction does not take (SUB 1). -/
  | unusedField
  /-- A prefix followed by a uniform word, a prefix, or a major that does not accept its kind (SUB 1). -/
  | misplaced
  /-- SREAD or SWRITE naming no special register (SUB 3). -/
  | reservedSelector
  deriving DecidableEq, Repr

/-- The SUB value of the illegal-instruction cause word (10 R222). -/
def Illegal.sub : Illegal → Nat
  | .reservedMajor => 0
  | .reservedField => 0
  | .malformedFields => 1
  | .unusedField => 1
  | .misplaced => 1
  | .reservedSelector => 3

/-- n bits of a word from bit lo up. -/
def fld (w lo n : Nat) : Nat := w / 2 ^ lo % 2 ^ n

/-- n bits of a word from bit lo up, as bits. -/
def bfld (w lo n : Nat) : BitVec n := BitVec.ofNat n (w / 2 ^ lo)

/-- Vector major 0x01, VINT (04 R79). -/
def decodeVint (ap : Option APre) (w : Nat) : Except Illegal Instr :=
  match fld w 0 4 with
  | 0 => .ok (.vadd ap (bfld w 18 7) (bfld w 11 7) (bfld w 4 7))
  | 1 => .ok (.vsub ap (bfld w 18 7) (bfld w 11 7) (bfld w 4 7))
  | 2 => .ok (.vmul ap (bfld w 18 7) (bfld w 11 7) (bfld w 4 7))
  | 3 => .ok (.vmulhI ap (bfld w 18 7) (bfld w 11 7) (bfld w 4 7))
  | 4 => .ok (.vmulhN ap (bfld w 18 7) (bfld w 11 7) (bfld w 4 7))
  | 5 => .ok (.vmad ap (bfld w 18 7) (bfld w 11 7) (bfld w 4 7))
  | 6 => .ok (.vminI ap (bfld w 18 7) (bfld w 11 7) (bfld w 4 7))
  | 7 => .ok (.vminN ap (bfld w 18 7) (bfld w 11 7) (bfld w 4 7))
  | 8 => .ok (.vmaxI ap (bfld w 18 7) (bfld w 11 7) (bfld w 4 7))
  | 9 => .ok (.vmaxN ap (bfld w 18 7) (bfld w 11 7) (bfld w 4 7))
  | 10 =>
      if fld w 4 7 = 0 then .ok (.vabs ap (bfld w 18 7) (bfld w 11 7))
      else .error .reservedField
  | 11 =>
      if fld w 4 7 = 0 then .ok (.vclz ap (bfld w 18 7) (bfld w 11 7))
      else .error .reservedField
  | 12 =>
      if fld w 4 7 = 0 then .ok (.vpopc ap (bfld w 18 7) (bfld w 11 7))
      else .error .reservedField
  | _ => .error .reservedField

/-- Vector major 0x02, VLOGIC (04 R79). -/
def decodeVlogic (ap : Option APre) (w : Nat) : Except Illegal Instr :=
  match fld w 0 4 with
  | 0 => .ok (.vand ap (bfld w 18 7) (bfld w 11 7) (bfld w 4 7))
  | 1 => .ok (.vor ap (bfld w 18 7) (bfld w 11 7) (bfld w 4 7))
  | 2 => .ok (.vxor ap (bfld w 18 7) (bfld w 11 7) (bfld w 4 7))
  | 3 => .ok (.vshl ap (bfld w 18 7) (bfld w 11 7) (bfld w 4 7))
  | 4 => .ok (.vshr ap (bfld w 18 7) (bfld w 11 7) (bfld w 4 7))
  | 5 => .ok (.vsar ap (bfld w 18 7) (bfld w 11 7) (bfld w 4 7))
  | 6 => .ok (.vbfeI ap (bfld w 18 7) (bfld w 11 7) (bfld w 4 7))
  | 7 => .ok (.vbfeN ap (bfld w 18 7) (bfld w 11 7) (bfld w 4 7))
  | 8 => .ok (.vbfi ap (bfld w 18 7) (bfld w 11 7) (bfld w 4 7))
  | _ => .error .reservedField

/-- Vector major 0x03, VADDI (04 R79). -/
def decodeVaddi (ap : Option APre) (w : Nat) : Except Illegal Instr :=
  .ok (.vaddi ap (bfld w 18 7) (bfld w 11 7) (bfld w 0 11))

/-- Vector major 0x04, VANDI (04 R79). -/
def decodeVandi (ap : Option APre) (w : Nat) : Except Illegal Instr :=
  .ok (.vandi ap (bfld w 18 7) (bfld w 11 7) (bfld w 0 11))

/-- Vector major 0x05, VORI (04 R79). -/
def decodeVori (ap : Option APre) (w : Nat) : Except Illegal Instr :=
  .ok (.vori ap (bfld w 18 7) (bfld w 11 7) (bfld w 0 11))

/-- Vector major 0x06, VXORI (04 R79). -/
def decodeVxori (ap : Option APre) (w : Nat) : Except Illegal Instr :=
  .ok (.vxori ap (bfld w 18 7) (bfld w 11 7) (bfld w 0 11))

/-- Vector major 0x07, VSHI (04 R79). -/
def decodeVshi (ap : Option APre) (w : Nat) : Except Illegal Instr :=
  match fld w 9 2 with
  | 0 =>
      if fld w 5 4 = 0 then .ok (.vshlImm ap (bfld w 18 7) (bfld w 11 7) (bfld w 0 5))
      else .error .reservedField
  | 1 =>
      if fld w 5 4 = 0 then .ok (.vshrImm ap (bfld w 18 7) (bfld w 11 7) (bfld w 0 5))
      else .error .reservedField
  | 2 =>
      if fld w 5 4 = 0 then .ok (.vsarImm ap (bfld w 18 7) (bfld w 11 7) (bfld w 0 5))
      else .error .reservedField
  | _ => .error .reservedField

/-- Vector major 0x08, VMOVI (04 R79). -/
def decodeVmovi (ap : Option APre) (w : Nat) : Except Illegal Instr :=
  .ok (.vmovi ap (bfld w 18 7) (bfld w 0 18))

/-- Vector major 0x09, VFLT (04 R79). -/
def decodeVflt (ap : Option APre) (w : Nat) : Except Illegal Instr :=
  match fld w 0 4 with
  | 0 => .ok (.vfadd ap (bfld w 18 7) (bfld w 11 7) (bfld w 4 7))
  | 1 => .ok (.vfsub ap (bfld w 18 7) (bfld w 11 7) (bfld w 4 7))
  | 2 => .ok (.vfmul ap (bfld w 18 7) (bfld w 11 7) (bfld w 4 7))
  | 3 => .ok (.vffma ap (bfld w 18 7) (bfld w 11 7) (bfld w 4 7))
  | 4 => .ok (.vfmin ap (bfld w 18 7) (bfld w 11 7) (bfld w 4 7))
  | 5 => .ok (.vfmax ap (bfld w 18 7) (bfld w 11 7) (bfld w 4 7))
  | _ => .error .reservedField

/-- Vector major 0x0A, VSFU (04 R79). -/
def decodeVsfu (ap : Option APre) (w : Nat) : Except Illegal Instr :=
  match fld w 0 4 with
  | 0 =>
      if fld w 4 7 = 0 then .ok (.vrcp ap (bfld w 18 7) (bfld w 11 7))
      else .error .reservedField
  | 1 =>
      if fld w 4 7 = 0 then .ok (.vrsq ap (bfld w 18 7) (bfld w 11 7))
      else .error .reservedField
  | 2 =>
      if fld w 4 7 = 0 then .ok (.vsqrt ap (bfld w 18 7) (bfld w 11 7))
      else .error .reservedField
  | 3 =>
      if fld w 4 7 = 0 then .ok (.vexp2 ap (bfld w 18 7) (bfld w 11 7))
      else .error .reservedField
  | 4 =>
      if fld w 4 7 = 0 then .ok (.vlog2 ap (bfld w 18 7) (bfld w 11 7))
      else .error .reservedField
  | 5 =>
      if fld w 4 7 = 0 then .ok (.vsinp ap (bfld w 18 7) (bfld w 11 7))
      else .error .reservedField
  | 6 =>
      if fld w 4 7 = 0 then .ok (.vact ap (bfld w 18 7) (bfld w 11 7))
      else .error .reservedField
  | _ => .error .reservedField

/-- Vector major 0x0B, VPK (04 R79). -/
def decodeVpk (ap : Option APre) (w : Nat) : Except Illegal Instr :=
  match fld w 0 2 with
  | 0 => .ok (.vpkadd ap (bfld w 18 7) (bfld w 11 7) (bfld w 4 7) (bfld w 2 2))
  | 1 => .ok (.vpkmul ap (bfld w 18 7) (bfld w 11 7) (bfld w 4 7) (bfld w 2 2))
  | 2 => .ok (.vpkfma ap (bfld w 18 7) (bfld w 11 7) (bfld w 4 7) (bfld w 2 2))
  | _ => .error .reservedField

/-- Vector major 0x0C, VCVT (04 R79). -/
def decodeVcvt (ap : Option APre) (w : Nat) : Except Illegal Instr :=
  if cvtLegal (fld w 8 3) (fld w 4 4) (fld w 3 1) (fld w 2 1) (fld w 0 2) then .ok (.vcvt ap (bfld w 18 7) (bfld w 11 7) (bfld w 8 3) (bfld w 4 4) (bfld w 3 1) (bfld w 2 1) (bfld w 0 2))
  else .error .reservedField

/-- Vector major 0x0D, VCMP (04 R79). -/
def decodeVcmp (ap : Option APre) (w : Nat) : Except Illegal Instr :=
  if (fld w 23 2) ≤ 2 ∧ (fld w 0 4) ≤ 7 ∧ (6 ≤ (fld w 0 4) → (fld w 23 2) = 2) then .ok (.vcmp ap (bfld w 23 2) (bfld w 18 5) (bfld w 11 7) (bfld w 4 7) (bfld w 0 4))
  else .error .reservedField

/-- Vector major 0x0E, VSEL (04 R79). -/
def decodeVsel (ap : Option APre) (w : Nat) : Except Illegal Instr :=
  .ok (.vsel ap (bfld w 18 7) (bfld w 11 7) (bfld w 4 7) (bfld w 0 4))

/-- Vector major 0x0F, VMOV (04 R79). -/
def decodeVmov (ap : Option APre) (w : Nat) : Except Illegal Instr :=
  match fld w 0 4 with
  | 0 =>
      if fld w 4 7 = 0 then .ok (.vmov ap (bfld w 18 7) (bfld w 11 7))
      else .error .reservedField
  | 1 =>
      if fld w 4 7 = 0 ∧ fld w 17 1 = 0 then .ok (.vmovLo ap (bfld w 18 7) (bfld w 11 6))
      else .error .reservedField
  | 2 =>
      if fld w 4 7 = 0 ∧ fld w 17 1 = 0 then .ok (.vmovHi ap (bfld w 18 7) (bfld w 11 6))
      else .error .reservedField
  | 3 =>
      if fld w 4 14 = 0 then .ok (.vmovLane ap (bfld w 18 7))
      else .error .reservedField
  | 4 =>
      if fld w 4 14 = 0 then .ok (.vmovTid ap (bfld w 18 7))
      else .error .reservedField
  | _ => .error .reservedField

/-- Vector major 0x10, PLOG and ELECT (04 R79). -/
def decodePlog (ap : Option APre) (w : Nat) : Except Illegal Instr :=
  match fld w 4 6 with
  | 0 => .ok (.plog ap (bfld w 20 5) (bfld w 15 5) (bfld w 10 5) (bfld w 0 4))
  | 1 =>
      if fld w 0 4 = 0 ∧ fld w 10 10 = 0 then .ok (.elect ap (bfld w 20 5))
      else .error .reservedField
  | _ => .error .reservedField

/-- Vector major 0x11, VLD (04 R79). -/
def decodeVld (mp : Option MPre) (w : Nat) : Except Illegal Instr :=
  if (fld w 2 3) ≤ 6 ∧ (fld w 0 2) ≤ 2 then .ok (.vld mp (bfld w 18 7) (bfld w 12 6) (bfld w 5 7) (bfld w 2 3) (bfld w 0 2))
  else .error .reservedField

/-- Vector major 0x12, VST (04 R79). -/
def decodeVst (mp : Option MPre) (w : Nat) : Except Illegal Instr :=
  if (fld w 2 3) ≤ 4 ∧ (fld w 0 2) ≤ 2 then .ok (.vst mp (bfld w 18 7) (bfld w 12 6) (bfld w 5 7) (bfld w 2 3) (bfld w 0 2))
  else .error .reservedField

/-- Vector major 0x13, VATOM (04 R79). -/
def decodeVatom (mp : Option MPre) (w : Nat) : Except Illegal Instr :=
  if (fld w 0 5) ≤ 11 then .ok (.vatom mp (bfld w 18 7) (bfld w 12 6) (bfld w 5 7) (bfld w 0 5))
  else .error .reservedField

/-- Vector major 0x14, GATH (04 R79). -/
def decodeGath (mp : Option MPre) (w : Nat) : Except Illegal Instr :=
  if fld w 2 3 = 2 ∧ (fld w 0 2) ≤ 2 then .ok (.gath mp (bfld w 18 7) (bfld w 12 6) (bfld w 5 7) (bfld w 0 2))
  else .error .reservedField

/-- Vector major 0x15, DFILE (04 R79). -/
def decodeDfile (ap : Option APre) (w : Nat) : Except Illegal Instr :=
  match fld w 0 4 with
  | 0 => .ok (.drdBlk ap (bfld w 18 7) (bfld w 11 7) (bfld w 4 7))
  | 1 => .ok (.drdTrp ap (bfld w 18 7) (bfld w 11 7) (bfld w 4 7))
  | 2 => .ok (.dwr ap (bfld w 18 7) (bfld w 11 7) (bfld w 4 7))
  | _ => .error .reservedField

/-- Vector major 0x16, SHFL (04 R79). -/
def decodeShfl (ap : Option APre) (w : Nat) : Except Illegal Instr :=
  .ok (.shfl ap (bfld w 18 7) (bfld w 11 7) (bfld w 4 7) (bfld w 2 2) (bfld w 0 2))

/-- Vector major 0x17, VRED (04 R79). -/
def decodeVred (ap : Option APre) (w : Nat) : Except Illegal Instr :=
  if fld w 4 7 = 0 then .ok (.vred ap (bfld w 18 7) (bfld w 11 7) (bfld w 2 2) (bfld w 0 2))
  else .error .reservedField

/-- Vector major 0x18, VSCAN (04 R79). -/
def decodeVscan (ap : Option APre) (w : Nat) : Except Illegal Instr :=
  if fld w 4 7 = 0 ∧ (fld w 0 2) ≤ 2 then .ok (.vscan ap (bfld w 18 7) (bfld w 11 7) (bfld w 2 2) (bfld w 0 2))
  else .error .reservedField

/-- Vector major 0x19, VOTE (04 R79). -/
def decodeVote (ap : Option APre) (w : Nat) : Except Illegal Instr :=
  if fld w 4 7 = 0 ∧ fld w 16 2 = 0 ∧ (¬((fld w 0 2) = 0 ∧ (fld w 2 2) = 2 ∧ (fld w 18 7) % 2 = 1)) then .ok (.vote ap (bfld w 18 7) (bfld w 11 5) (bfld w 2 2) (bfld w 0 2))
  else .error .reservedField

/-- Vector major 0x1A, BCAST (04 R79). -/
def decodeBcast (ap : Option APre) (w : Nat) : Except Illegal Instr :=
  if fld w 0 2 = 0 then .ok (.bcast ap (bfld w 18 7) (bfld w 11 7) (bfld w 4 7) (bfld w 2 2))
  else .error .reservedField

/-- Vector major 0x1B, MXISSUE (04 R79). -/
def decodeMxissue (ap : Option APre) (w : Nat) : Except Illegal Instr :=
  if fld w 0 11 = 0 ∧ fld w 18 7 = 0 then .ok (.mxissue ap (bfld w 11 7))
  else .error .reservedField

/-- Vector major 0x1C, ACCX (04 R79). -/
def decodeAccx (ap : Option APre) (w : Nat) : Except Illegal Instr :=
  match fld w 0 4 with
  | 0 =>
      if fld w 4 7 = 0 then .ok (.accrd ap (bfld w 18 7) (bfld w 11 7))
      else .error .reservedField
  | 1 =>
      if fld w 4 7 = 0 then .ok (.accwr ap (bfld w 18 7) (bfld w 11 7))
      else .error .reservedField
  | _ => .error .reservedField

/-- Vector major 0x1D, JOIN (04 R79). -/
def decodeJoin (w : Nat) : Except Illegal Instr :=
  match fld w 21 1 with
  | 0 => .ok (.jenr (bfld w 22 3) (bfld w 0 21))
  | 1 =>
      if fld w 0 21 = 0 then .ok (.jwait (bfld w 22 3))
      else .error .reservedField
  | _ => .error .reservedField

/-- Vector major 0x1E, BRV (04 R79). -/
def decodeBrv (w : Nat) : Except Illegal Instr :=
  .ok (.brv (bfld w 20 5) (bfld w 19 1) (bfld w 0 19))

/-- Vector major 0x1F, EXIT (04 R79). -/
def decodeExit (ap : Option APre) (w : Nat) : Except Illegal Instr :=
  if fld w 0 25 = 0 then .ok (.exit ap)
  else .error .reservedField

/-- Vector major 0x20, SPAWN (04 R79). -/
def decodeSpawn (ap : Option APre) (w : Nat) : Except Illegal Instr :=
  if fld w 0 5 = 0 ∧ fld w 11 1 = 0 ∧ fld w 18 7 = 0 then .ok (.spawn ap (bfld w 12 6) (bfld w 5 6))
  else .error .reservedField

/-- Uniform major 0x00, UINT (04 R81). -/
def decodeUint (w : Nat) : Except Illegal Instr :=
  match fld w 0 7 with
  | 0 => .ok (.uadd (bfld w 19 6) (bfld w 13 6) (bfld w 7 6))
  | 1 => .ok (.usub (bfld w 19 6) (bfld w 13 6) (bfld w 7 6))
  | 2 => .ok (.umul (bfld w 19 6) (bfld w 13 6) (bfld w 7 6))
  | 3 => .ok (.umulhI (bfld w 19 6) (bfld w 13 6) (bfld w 7 6))
  | 4 => .ok (.umulhN (bfld w 19 6) (bfld w 13 6) (bfld w 7 6))
  | 5 => .ok (.uand (bfld w 19 6) (bfld w 13 6) (bfld w 7 6))
  | 6 => .ok (.uor (bfld w 19 6) (bfld w 13 6) (bfld w 7 6))
  | 7 => .ok (.uxor (bfld w 19 6) (bfld w 13 6) (bfld w 7 6))
  | 8 => .ok (.ushl (bfld w 19 6) (bfld w 13 6) (bfld w 7 6))
  | 9 => .ok (.ushr (bfld w 19 6) (bfld w 13 6) (bfld w 7 6))
  | 10 => .ok (.usar (bfld w 19 6) (bfld w 13 6) (bfld w 7 6))
  | 11 => .ok (.uminI (bfld w 19 6) (bfld w 13 6) (bfld w 7 6))
  | 12 => .ok (.uminN (bfld w 19 6) (bfld w 13 6) (bfld w 7 6))
  | 13 => .ok (.umaxI (bfld w 19 6) (bfld w 13 6) (bfld w 7 6))
  | 14 => .ok (.umaxN (bfld w 19 6) (bfld w 13 6) (bfld w 7 6))
  | 15 =>
      if fld w 7 6 = 0 then .ok (.umov (bfld w 19 6) (bfld w 13 6))
      else .error .reservedField
  | _ => .error .reservedField

/-- Uniform major 0x01, UADDI (04 R81). -/
def decodeUaddi (w : Nat) : Except Illegal Instr :=
  .ok (.uaddi (bfld w 19 6) (bfld w 13 6) (bfld w 0 13))

/-- Uniform major 0x02, UANDI (04 R81). -/
def decodeUandi (w : Nat) : Except Illegal Instr :=
  .ok (.uandi (bfld w 19 6) (bfld w 13 6) (bfld w 0 13))

/-- Uniform major 0x03, UORI (04 R81). -/
def decodeUori (w : Nat) : Except Illegal Instr :=
  .ok (.uori (bfld w 19 6) (bfld w 13 6) (bfld w 0 13))

/-- Uniform major 0x04, UXORI (04 R81). -/
def decodeUxori (w : Nat) : Except Illegal Instr :=
  .ok (.uxori (bfld w 19 6) (bfld w 13 6) (bfld w 0 13))

/-- Uniform major 0x05, USHI (04 R81). -/
def decodeUshi (w : Nat) : Except Illegal Instr :=
  match fld w 11 2 with
  | 0 =>
      if fld w 6 5 = 0 then .ok (.ushlImm (bfld w 19 6) (bfld w 13 6) (bfld w 0 6))
      else .error .reservedField
  | 1 =>
      if fld w 6 5 = 0 then .ok (.ushrImm (bfld w 19 6) (bfld w 13 6) (bfld w 0 6))
      else .error .reservedField
  | 2 =>
      if fld w 6 5 = 0 then .ok (.usarImm (bfld w 19 6) (bfld w 13 6) (bfld w 0 6))
      else .error .reservedField
  | _ => .error .reservedField

/-- Uniform major 0x06, UMOVI (04 R81). -/
def decodeUmovi (w : Nat) : Except Illegal Instr :=
  .ok (.umovi (bfld w 19 6) (bfld w 0 19))

/-- Uniform major 0x08, UFROMV (04 R81). -/
def decodeUfromv (w : Nat) : Except Illegal Instr :=
  if fld w 0 11 = 0 then .ok (.ufromv (bfld w 19 6) (bfld w 12 7) (bfld w 11 1))
  else .error .reservedField

/-- Uniform major 0x09, ULD (04 R81). -/
def decodeUld (w : Nat) : Except Illegal Instr :=
  if (fld w 10 3) ≤ 6 then .ok (.uld (bfld w 19 6) (bfld w 13 6) (bfld w 10 3) (bfld w 0 10))
  else .error .reservedField

/-- Uniform major 0x0A, UST (04 R81). -/
def decodeUst (w : Nat) : Except Illegal Instr :=
  if (fld w 10 3) ≤ 3 then .ok (.ust (bfld w 19 6) (bfld w 13 6) (bfld w 10 3) (bfld w 0 10))
  else .error .reservedField

/-- Uniform major 0x0B, UATOM (04 R81). -/
def decodeUatom (w : Nat) : Except Illegal Instr :=
  if fld w 0 3 = 0 ∧ ((fld w 8 5) ≤ 11 ∧ (fld w 5 3) ≤ 6 ∧ ((fld w 8 5) = 9 → (fld w 19 6) % 2 = 0 ∧ (fld w 19 6) ≠ 0)) then .ok (.uatom (bfld w 19 6) (bfld w 13 6) (bfld w 8 5) (bfld w 5 3) (bfld w 3 2))
  else .error .reservedField

/-- Uniform major 0x0C, FENCE (04 R81). -/
def decodeFence (w : Nat) : Except Illegal Instr :=
  if fld w 0 8 = 0 ∧ fld w 13 12 = 0 ∧ (1 ≤ (fld w 10 3) ∧ (fld w 10 3) ≤ 6 ∧ (fld w 8 2) ≤ 2) then .ok (.fence (bfld w 10 3) (bfld w 8 2))
  else .error .reservedField

/-- Uniform major 0x0D, UB (04 R81). -/
def decodeUb (w : Nat) : Except Illegal Instr :=
  if (fld w 22 3) ≤ 5 then .ok (.ub (bfld w 22 3) (bfld w 16 6) (bfld w 10 6) (bfld w 0 10))
  else .error .reservedField

/-- Uniform major 0x0E, BRA (04 R81). -/
def decodeBra (w : Nat) : Except Illegal Instr :=
  .ok (.bra (bfld w 0 25))

/-- Uniform major 0x0F, CALL (04 R81). -/
def decodeCall (w : Nat) : Except Illegal Instr :=
  .ok (.call (bfld w 0 25))

/-- Uniform major 0x10, JMPI (04 R81). -/
def decodeJmpi (w : Nat) : Except Illegal Instr :=
  if fld w 0 13 = 0 ∧ fld w 19 6 = 0 then .ok (if fld w 13 6 = 63 then .ret else .jmpi (bfld w 13 6))
  else .error .reservedField

/-- Uniform major 0x11, BAR (04 R81). -/
def decodeBar (w : Nat) : Except Illegal Instr :=
  match fld w 11 2 with
  | 0 =>
      if fld w 0 7 = 0 ∧ fld w 19 6 = 0 then .ok (.bararr (bfld w 13 6) (bfld w 7 4))
      else .error .reservedField
  | 1 =>
      if fld w 0 7 = 0 ∧ fld w 19 6 = 0 then .ok (.barwait (bfld w 13 6) (bfld w 7 4))
      else .error .reservedField
  | 2 =>
      if fld w 0 7 = 0 ∧ fld w 19 6 = 0 then .ok (.barsync (bfld w 13 6) (bfld w 7 4))
      else .error .reservedField
  | _ => .error .reservedField

/-- Uniform major 0x12, SETW (04 R81). -/
def decodeSetw (w : Nat) : Except Illegal Instr :=
  if fld w 3 16 = 0 then .ok (.setw (bfld w 19 6) (bfld w 2 1) (bfld w 0 2))
  else .error .reservedField

/-- Uniform major 0x13, ALLOC (04 R81). -/
def decodeAlloc (w : Nat) : Except Illegal Instr :=
  match fld w 11 2 with
  | 0 =>
      if fld w 5 5 = 0 ∧ fld w 13 12 = 0 ∧ (fld w 0 5) ≤ (if (fld w 10 1) = 1 then 8 else 12) then .ok (.vshrink (bfld w 10 1) (bfld w 0 5))
      else .error .reservedField
  | 1 =>
      if fld w 5 5 = 0 ∧ fld w 13 12 = 0 ∧ (fld w 0 5) ≤ (if (fld w 10 1) = 1 then 8 else 12) then .ok (.vgrow (bfld w 10 1) (bfld w 0 5))
      else .error .reservedField
  | _ => .error .reservedField

/-- Uniform major 0x14, SREAD (04 R81). -/
def decodeSread (w : Nat) : Except Illegal Instr :=
  if fld w 13 6 = 0 then if fld w 0 13 ≤ 0x33 then .ok (.sread (bfld w 19 6) (bfld w 0 13)) else .error .reservedSelector
  else .error .reservedField

/-- Uniform major 0x15, SWRITE (04 R81). -/
def decodeSwrite (w : Nat) : Except Illegal Instr :=
  if fld w 19 6 = 0 then if fld w 0 13 ≤ 0x33 then .ok (.swrite (bfld w 13 6) (bfld w 0 13)) else .error .reservedSelector
  else .error .reservedField

/-- Uniform major 0x16, TRAP (04 R81). -/
def decodeTrap (w : Nat) : Except Illegal Instr :=
  if fld w 13 12 = 0 then .ok (.trap (bfld w 0 13))
  else .error .reservedField

/-- Uniform major 0x17, TRET (04 R81). -/
def decodeTret (w : Nat) : Except Illegal Instr :=
  if fld w 1 24 = 0 then .ok (.tret (bfld w 0 1))
  else .error .reservedField

/-- Uniform major 0x18, BKPT (04 R81). -/
def decodeBkpt (w : Nat) : Except Illegal Instr :=
  if fld w 0 25 = 0 then .ok .bkpt
  else .error .reservedField

/-- Uniform major 0x19, NOP (04 R81). -/
def decodeNop (w : Nat) : Except Illegal Instr :=
  if fld w 0 25 = 0 then .ok .nop
  else .error .reservedField

/-- Uniform major 0x1A, WAITC (04 R81). -/
def decodeWaitc (w : Nat) : Except Illegal Instr :=
  if fld w 6 5 = 0 ∧ fld w 13 12 = 0 then .ok (.waitc (bfld w 11 2) (bfld w 0 6))
  else .error .reservedField

/-- Uniform major 0x1B, WAITT (04 R81). -/
def decodeWaitt (w : Nat) : Except Illegal Instr :=
  if fld w 1 12 = 0 then .ok (.waitt (bfld w 19 6) (bfld w 13 6) (bfld w 0 1))
  else .error .reservedField

/-- Uniform major 0x1C, TFIRST (04 R81). -/
def decodeTfirst (w : Nat) : Except Illegal Instr :=
  if fld w 0 19 = 0 then .ok (.tfirst (bfld w 19 6))
  else .error .reservedField

/-- Uniform major 0x1D, TCLR (04 R81). -/
def decodeTclr (w : Nat) : Except Illegal Instr :=
  if fld w 0 13 = 0 ∧ fld w 19 6 = 0 then .ok (.tclr (bfld w 13 6))
  else .error .reservedField

/-- Uniform major 0x1E, TDSET (04 R81). -/
def decodeTdset (w : Nat) : Except Illegal Instr :=
  if fld w 0 8 = 0 then .ok (.tdset (bfld w 17 8) (bfld w 14 3) (bfld w 8 6))
  else .error .reservedField

/-- Uniform major 0x1F, TDGET (04 R81). -/
def decodeTdget (w : Nat) : Except Illegal Instr :=
  if fld w 0 8 = 0 then .ok (.tdget (bfld w 17 8) (bfld w 14 3) (bfld w 8 6))
  else .error .reservedField

/-- Uniform major 0x20, TDINV (04 R81). -/
def decodeTdinv (w : Nat) : Except Illegal Instr :=
  match fld w 16 1 with
  | 0 =>
      if fld w 0 16 = 0 then .ok (.tdinv (bfld w 17 8))
      else .error .reservedField
  | 1 =>
      if fld w 0 16 = 0 ∧ fld w 17 8 = 0 then .ok .tdinvAll
      else .error .reservedField
  | _ => .error .reservedField

/-- Uniform major 0x21, TDPOOL (04 R81). -/
def decodeTdpool (w : Nat) : Except Illegal Instr :=
  .ok (.tdpool (bfld w 17 8) (bfld w 0 17))

/-- Uniform major 0x22, CPY (04 R81). -/
def decodeCpy (w : Nat) : Except Illegal Instr :=
  if fld w 0 3 = 0 ∧ (1 ≤ (fld w 3 6) ∧ (fld w 3 6) ≤ 61) then .ok (.cpy (bfld w 17 8) (bfld w 9 8) (bfld w 3 6))
  else .error .reservedField

/-- Uniform major 0x23, WLOAD (04 R81). -/
def decodeWload (w : Nat) : Except Illegal Instr :=
  if fld w 0 7 = 0 then .ok (.wload (bfld w 21 4) (bfld w 13 8) (bfld w 7 6))
  else .error .reservedField

/-- Uniform major 0x24, MXMETA (04 R81). -/
def decodeMxmeta (w : Nat) : Except Illegal Instr :=
  if fld w 0 11 = 0 then .ok (.mxmeta (bfld w 17 8) (bfld w 11 6))
  else .error .reservedField

/-- Uniform major 0x25, ACCLD (04 R81). -/
def decodeAccld (w : Nat) : Except Illegal Instr :=
  if fld w 0 4 = 0 then .ok (.accld (bfld w 17 8) (bfld w 10 7) (bfld w 4 6))
  else .error .reservedField

/-- Uniform major 0x26, ACCST (04 R81). -/
def decodeAccst (w : Nat) : Except Illegal Instr :=
  if fld w 0 4 = 0 then .ok (.accst (bfld w 17 8) (bfld w 10 7) (bfld w 4 6))
  else .error .reservedField

/-- Uniform major 0x27, ACCZ (04 R81). -/
def decodeAccz (w : Nat) : Except Illegal Instr :=
  if fld w 0 11 = 0 ∧ (fld w 18 7) + (fld w 11 7) ≤ 127 then .ok (.accz (bfld w 18 7) (bfld w 11 7))
  else .error .reservedField

/-- Uniform major 0x28, COLL (04 R81). -/
def decodeColl (w : Nat) : Except Illegal Instr :=
  if fld w 0 11 = 0 ∧ (1 ≤ (fld w 11 6) ∧ (fld w 11 6) ≤ 61) then .ok (.coll (bfld w 17 8) (bfld w 11 6))
  else .error .reservedField

/-- Uniform major 0x29, ACTLD (04 R81). -/
def decodeActld (w : Nat) : Except Illegal Instr :=
  if fld w 0 17 = 0 then .ok (.actld (bfld w 17 8))
  else .error .reservedField

/-- Uniform major 0x2A, OAPP (04 R81). -/
def decodeOapp (w : Nat) : Except Illegal Instr :=
  if fld w 0 9 = 0 then .ok (.oapp (bfld w 19 6) (bfld w 13 6) (bfld w 9 4))
  else .error .reservedField

/-- Uniform major 0x2B, ODECL (04 R81). -/
def decodeOdecl (w : Nat) : Except Illegal Instr :=
  if fld w 0 9 = 0 ∧ fld w 13 12 = 0 then .ok (.odecl (bfld w 9 4))
  else .error .reservedField

/-- Uniform major 0x2C, MBXWAIT (04 R81). -/
def decodeMbxwait (w : Nat) : Except Illegal Instr :=
  if fld w 6 19 = 0 then .ok (.mbxwait (bfld w 0 6))
  else .error .reservedField

/-- Uniform major 0x2D, MBXPOP (04 R81). -/
def decodeMbxpop (w : Nat) : Except Illegal Instr :=
  if fld w 6 13 = 0 then .ok (.mbxpop (bfld w 19 6) (bfld w 0 6))
  else .error .reservedField

/-- Uniform major 0x2E, CACHE (04 R81). -/
def decodeCache (w : Nat) : Except Illegal Instr :=
  match fld w 11 2 with
  | 0 =>
      if fld w 0 8 = 0 ∧ (2 ≤ (fld w 8 3) ∧ (fld w 8 3) ≤ 6) then .ok (.cwb (bfld w 19 6) (bfld w 13 6) (bfld w 8 3))
      else .error .reservedField
  | 1 =>
      if fld w 0 8 = 0 ∧ (2 ≤ (fld w 8 3) ∧ (fld w 8 3) ≤ 6) then .ok (.cinv (bfld w 19 6) (bfld w 13 6) (bfld w 8 3))
      else .error .reservedField
  | 2 =>
      if fld w 0 8 = 0 ∧ (fld w 8 3) ≤ 2 then .ok (.pref (bfld w 19 6) (bfld w 13 6) (bfld w 8 3))
      else .error .reservedField
  | _ => .error .reservedField

/-- Major 0x07, ULIT, with the literal word that follows it (04 R81, 15 R370). -/
def decodeUlit (w lit : Nat) : Except Illegal Instr :=
  if fld w 0 18 = 0 then .ok (.ulit (bfld w 19 6) (bfld w 18 1) (BitVec.ofNat 32 lit)) else .error .reservedField

/-- A vector word other than a prefix, with the prefix in front of it if there is one (04 R79). -/
def decodeVector (ap : Option APre) (mp : Option MPre) (w : Nat) : Except Illegal Instr :=
  match fld w 25 6 with
  | 1 => decodeVint ap w
  | 2 => decodeVlogic ap w
  | 3 => decodeVaddi ap w
  | 4 => decodeVandi ap w
  | 5 => decodeVori ap w
  | 6 => decodeVxori ap w
  | 7 => decodeVshi ap w
  | 8 => decodeVmovi ap w
  | 9 => decodeVflt ap w
  | 10 => decodeVsfu ap w
  | 11 => decodeVpk ap w
  | 12 => decodeVcvt ap w
  | 13 => decodeVcmp ap w
  | 14 => decodeVsel ap w
  | 15 => decodeVmov ap w
  | 16 => decodePlog ap w
  | 17 => decodeVld mp w
  | 18 => decodeVst mp w
  | 19 => decodeVatom mp w
  | 20 => decodeGath mp w
  | 21 => decodeDfile ap w
  | 22 => decodeShfl ap w
  | 23 => decodeVred ap w
  | 24 => decodeVscan ap w
  | 25 => decodeVote ap w
  | 26 => decodeBcast ap w
  | 27 => decodeMxissue ap w
  | 28 => decodeAccx ap w
  | 29 => decodeJoin w
  | 30 => decodeBrv w
  | 31 => decodeExit ap w
  | 32 => decodeSpawn ap w
  | _ => .error .reservedMajor

/-- A uniform word (04 R81); lit is the word after it, which only ULIT reads. -/
def decodeUniform (w lit : Nat) : Except Illegal Instr :=
  match fld w 25 6 with
  | 0 => decodeUint w
  | 1 => decodeUaddi w
  | 2 => decodeUandi w
  | 3 => decodeUori w
  | 4 => decodeUxori w
  | 5 => decodeUshi w
  | 6 => decodeUmovi w
  | 8 => decodeUfromv w
  | 9 => decodeUld w
  | 10 => decodeUst w
  | 11 => decodeUatom w
  | 12 => decodeFence w
  | 13 => decodeUb w
  | 14 => decodeBra w
  | 15 => decodeCall w
  | 16 => decodeJmpi w
  | 17 => decodeBar w
  | 18 => decodeSetw w
  | 19 => decodeAlloc w
  | 20 => decodeSread w
  | 21 => decodeSwrite w
  | 22 => decodeTrap w
  | 23 => decodeTret w
  | 24 => decodeBkpt w
  | 25 => decodeNop w
  | 26 => decodeWaitc w
  | 27 => decodeWaitt w
  | 28 => decodeTfirst w
  | 29 => decodeTclr w
  | 30 => decodeTdset w
  | 31 => decodeTdget w
  | 32 => decodeTdinv w
  | 33 => decodeTdpool w
  | 34 => decodeCpy w
  | 35 => decodeWload w
  | 36 => decodeMxmeta w
  | 37 => decodeAccld w
  | 38 => decodeAccst w
  | 39 => decodeAccz w
  | 40 => decodeColl w
  | 41 => decodeActld w
  | 42 => decodeOapp w
  | 43 => decodeOdecl w
  | 44 => decodeMbxwait w
  | 45 => decodeMbxpop w
  | 46 => decodeCache w
  | 7 => decodeUlit w lit
  | _ => .error .reservedMajor

/-- The word is a prefix: bit 31 zero and major 0x3F (04 R74). -/
def isPrefixWord (w : Nat) : Bool := fld w 25 7 == 0x3F

/-- The fields of an arithmetic prefix (04 R74, kind 0). -/
def readAPre (w : Nat) : APre :=
  { guard := bfld w 19 5, neg := fld w 18 1 == 1, zero := fld w 17 1 == 1, rnd := bfld w 14 3, sat := bfld w 12 2,
    vc := bfld w 5 7 }

/-- The fields of a memory prefix (04 R74, kind 1). -/
def readMPre (w : Nat) : MPre :=
  { guard := bfld w 19 5, neg := fld w 18 1 == 1, scope := bfld w 15 3, order := bfld w 13 2, hint := bfld w 11 2,
    off := bfld w 0 11 }

/-- A prefix with a reserved field value (04 R74, R75). -/
def prefixReserved (w : Nat) : Bool :=
  if fld w 24 1 = 0 then decide (6 ≤ fld w 14 3) || fld w 12 2 == 3 || fld w 0 5 != 0
  else fld w 15 3 == 7

/-- What the major of a legal vector word takes from an arithmetic prefix (04 R76); none: it accepts none. -/
def arithUse (w : Nat) : Option PreUse :=
  match fld w 25 6 with
  | 1 => some (if fld w 0 4 = 5 then .gzc else .gz)
  | 2 => some (if fld w 0 4 = 8 then .gzc else .gz)
  | 3 => some .gz
  | 4 => some .gz
  | 5 => some .gz
  | 6 => some .gz
  | 7 => some .gz
  | 8 => some .gz
  | 9 => some (if fld w 0 4 = 3 then .gzrc else if fld w 0 4 ≤ 2 then .gzr else .gz)
  | 10 => some .gzr
  | 11 => some (if fld w 0 2 = 2 then .gzrc else .gzr)
  | 12 => some .gzr
  | 13 => some .gz
  | 14 => some .gz
  | 15 => some .gz
  | 16 => some .gz
  | 21 => some .gz
  | 22 => some .gz
  | 23 => some .gz
  | 24 => some .gz
  | 25 => some .gz
  | 26 => some .gz
  | 27 => some .g
  | 28 => some .gz
  | 31 => some .g
  | 32 => some .g
  | _ => none

/-- The orders a memory prefix may give the major of a legal vector word (04 R76, R78); none: it accepts no memory
prefix. -/
def memOrders (w : Nat) : Option (List Nat) :=
  match fld w 25 6 with
  | 17 => some [0, 1]
  | 18 => some [0, 2]
  | 19 => some [0, 1, 2, 3]
  | 20 => some [0]
  | _ => none

/-- A non-zero field of an arithmetic prefix that the instruction does not use (04 R75, R76). -/
def unusedArith (u : PreUse) (p : APre) : Bool :=
  (!u.hasZ && p.zero) || (!u.hasRs && (p.rnd != 0 || p.sat != 0)) || (!u.hasVc && p.vc != 0)

/-- What some instruction of the major of a vector word, legal or not, takes from an arithmetic prefix (04 R76). -/
def majorUse (w : Nat) : Option PreUse :=
  match fld w 25 6 with
  | 1 => some .gzc
  | 2 => some .gzc
  | 9 => some .gzrc
  | 11 => some .gzrc
  | _ => arithUse w

/-- A prefix with a non-zero field that no instruction of the following word's major uses, or an order that the major does not
accept: it is malformed whatever the rest of that word is (04 R75, R76, R78; log 94). -/
def prefixUnused (w0 w1 : Nat) : Bool :=
  if fld w0 24 1 = 0 then (majorUse w1).any (fun u => unusedArith u (readAPre w0))
  else (memOrders w1).any (fun os => !os.contains (fld w0 13 2))

/-- A prefix and the vector word after it (04 R75): a reserved value in the prefix, then a uniform word or a second
prefix, then a field that the following major never uses, then the word's own legality, then whether it takes this kind of prefix and
each of its fields. -/
def decodePrefixed (w0 w1 : Nat) : Except Illegal Instr :=
  if prefixReserved w0 then .error .malformedFields
  else if fld w1 31 1 = 1 then .error .misplaced
  else if isPrefixWord w1 then .error .misplaced
  else if prefixUnused w0 w1 then .error .unusedField
  else if fld w0 24 1 = 0 then
    match decodeVector (some (readAPre w0)) none w1 with
    | .error e => .error e
    | .ok i =>
      match arithUse w1 with
      | none => .error .misplaced
      | some u => if unusedArith u (readAPre w0) then .error .unusedField else .ok i
  else
    match decodeVector none (some (readMPre w0)) w1 with
    | .error e => .error e
    | .ok i =>
      match memOrders w1 with
      | none => .error .misplaced
      | some os => if fld w0 13 2 ∈ os then .ok i else .error .unusedField

/-- The instruction at a word w0 with the word w1 after it (04 R67); w1 is read only where `needsSecond w0`. -/
def decode (w0 w1 : Nat) : Except Illegal Instr :=
  if fld w0 31 1 = 1 then decodeUniform w0 w1
  else if isPrefixWord w0 then decodePrefixed w0 w1
  else decodeVector none none w0

/-- The instruction at w0 takes the word after it: a prefix that is not itself malformed, or a legal ULIT
(04 R75, 15 R370). -/
def needsSecond (w0 : Nat) : Bool :=
  (isPrefixWord w0 && !prefixReserved w0) || (fld w0 25 7 == 0x47 && fld w0 0 18 == 0)

/-- The bytes of a word, least significant first (00 R2). -/
def wordBytes (w : Nat) : List Byte :=
  [BitVec.ofNat 8 w, BitVec.ofNat 8 (w / 2 ^ 8), BitVec.ofNat 8 (w / 2 ^ 16), BitVec.ofNat 8 (w / 2 ^ 24)]

/-- The word that four bytes make, least significant first; bytes that are missing count as zero. -/
def bytesWord : List Byte → Nat
  | [] => 0
  | b :: bs => b.toNat + 2 ^ 8 * bytesWord bs

/-- The instruction at the head of a list of bytes (04 R67), with the bytes after it. -/
def decodeBytes (bs : List Byte) : Except Illegal (Instr × List Byte) :=
  let w0 := bytesWord (bs.take 4)
  match decode w0 (bytesWord ((bs.drop 4).take 4)) with
  | .error e => .error e
  | .ok i => .ok (i, bs.drop (if needsSecond w0 then 8 else 4))

/-- A field's bits at their place in the word. -/
def put {n : Nat} (v : BitVec n) (lo : Nat) : Nat := v.toNat * 2 ^ lo

/-- A word's fixed bits with its fields put in (04 R72, R80). -/
def pack (fixed : Nat) (fields : List Nat) : Nat := fields.foldr (fun f w => f + w) fixed

/-- The prefix word of an instruction's arithmetic prefix, if it has one, before its own word (04 R74). -/
def encodeA (q : Option APre) (w : Nat) : List Nat :=
  match q with
  | none => [w]
  | some p => [pack 0x7E000000 [put p.guard 19, p.neg.toNat * 2 ^ 18, p.zero.toNat * 2 ^ 17, put p.rnd 14, put p.sat 12,
      put p.vc 5], w]

/-- The prefix word of an instruction's memory prefix, if it has one, before its own word (04 R74). -/
def encodeM (q : Option MPre) (w : Nat) : List Nat :=
  match q with
  | none => [w]
  | some p => [pack 0x7F000000 [put p.guard 19, p.neg.toNat * 2 ^ 18, put p.scope 15, put p.order 13, put p.hint 11,
      put p.off 0], w]

/-- The words of an instruction (04 R72-R81); an event has none. -/
def encode (i : Instr) : List Nat :=
  match i with
  | .vadd q d a b => encodeA q (pack 0x02000000 [put d 18, put a 11, put b 4])
  | .vsub q d a b => encodeA q (pack 0x02000001 [put d 18, put a 11, put b 4])
  | .vmul q d a b => encodeA q (pack 0x02000002 [put d 18, put a 11, put b 4])
  | .vmulhI q d a b => encodeA q (pack 0x02000003 [put d 18, put a 11, put b 4])
  | .vmulhN q d a b => encodeA q (pack 0x02000004 [put d 18, put a 11, put b 4])
  | .vmad q d a b => encodeA q (pack 0x02000005 [put d 18, put a 11, put b 4])
  | .vminI q d a b => encodeA q (pack 0x02000006 [put d 18, put a 11, put b 4])
  | .vminN q d a b => encodeA q (pack 0x02000007 [put d 18, put a 11, put b 4])
  | .vmaxI q d a b => encodeA q (pack 0x02000008 [put d 18, put a 11, put b 4])
  | .vmaxN q d a b => encodeA q (pack 0x02000009 [put d 18, put a 11, put b 4])
  | .vabs q d a => encodeA q (pack 0x0200000A [put d 18, put a 11])
  | .vclz q d a => encodeA q (pack 0x0200000B [put d 18, put a 11])
  | .vpopc q d a => encodeA q (pack 0x0200000C [put d 18, put a 11])
  | .vand q d a b => encodeA q (pack 0x04000000 [put d 18, put a 11, put b 4])
  | .vor q d a b => encodeA q (pack 0x04000001 [put d 18, put a 11, put b 4])
  | .vxor q d a b => encodeA q (pack 0x04000002 [put d 18, put a 11, put b 4])
  | .vshl q d a b => encodeA q (pack 0x04000003 [put d 18, put a 11, put b 4])
  | .vshr q d a b => encodeA q (pack 0x04000004 [put d 18, put a 11, put b 4])
  | .vsar q d a b => encodeA q (pack 0x04000005 [put d 18, put a 11, put b 4])
  | .vbfeI q d a b => encodeA q (pack 0x04000006 [put d 18, put a 11, put b 4])
  | .vbfeN q d a b => encodeA q (pack 0x04000007 [put d 18, put a 11, put b 4])
  | .vbfi q d a b => encodeA q (pack 0x04000008 [put d 18, put a 11, put b 4])
  | .vaddi q d a i => encodeA q (pack 0x06000000 [put d 18, put a 11, put i 0])
  | .vandi q d a i => encodeA q (pack 0x08000000 [put d 18, put a 11, put i 0])
  | .vori q d a i => encodeA q (pack 0x0A000000 [put d 18, put a 11, put i 0])
  | .vxori q d a i => encodeA q (pack 0x0C000000 [put d 18, put a 11, put i 0])
  | .vshlImm q d a n => encodeA q (pack 0x0E000000 [put d 18, put a 11, put n 0])
  | .vshrImm q d a n => encodeA q (pack 0x0E000200 [put d 18, put a 11, put n 0])
  | .vsarImm q d a n => encodeA q (pack 0x0E000400 [put d 18, put a 11, put n 0])
  | .vmovi q d i => encodeA q (pack 0x10000000 [put d 18, put i 0])
  | .vfadd q d a b => encodeA q (pack 0x12000000 [put d 18, put a 11, put b 4])
  | .vfsub q d a b => encodeA q (pack 0x12000001 [put d 18, put a 11, put b 4])
  | .vfmul q d a b => encodeA q (pack 0x12000002 [put d 18, put a 11, put b 4])
  | .vffma q d a b => encodeA q (pack 0x12000003 [put d 18, put a 11, put b 4])
  | .vfmin q d a b => encodeA q (pack 0x12000004 [put d 18, put a 11, put b 4])
  | .vfmax q d a b => encodeA q (pack 0x12000005 [put d 18, put a 11, put b 4])
  | .vrcp q d a => encodeA q (pack 0x14000000 [put d 18, put a 11])
  | .vrsq q d a => encodeA q (pack 0x14000001 [put d 18, put a 11])
  | .vsqrt q d a => encodeA q (pack 0x14000002 [put d 18, put a 11])
  | .vexp2 q d a => encodeA q (pack 0x14000003 [put d 18, put a 11])
  | .vlog2 q d a => encodeA q (pack 0x14000004 [put d 18, put a 11])
  | .vsinp q d a => encodeA q (pack 0x14000005 [put d 18, put a 11])
  | .vact q d a => encodeA q (pack 0x14000006 [put d 18, put a 11])
  | .vpkadd q d a b t => encodeA q (pack 0x16000000 [put d 18, put a 11, put b 4, put t 2])
  | .vpkmul q d a b t => encodeA q (pack 0x16000001 [put d 18, put a 11, put b 4, put t 2])
  | .vpkfma q d a b t => encodeA q (pack 0x16000002 [put d 18, put a 11, put b 4, put t 2])
  | .vcvt q d a c t x i s => encodeA q (pack 0x18000000 [put d 18, put a 11, put c 8, put t 4, put x 3, put i 2, put s 0])
  | .vcmp q t p a b c => encodeA q (pack 0x1A000000 [put t 23, put p 18, put a 11, put b 4, put c 0])
  | .vsel q d a b p => encodeA q (pack 0x1C000000 [put d 18, put a 11, put b 4, put p 0])
  | .vmov q d a => encodeA q (pack 0x1E000000 [put d 18, put a 11])
  | .vmovLo q d s => encodeA q (pack 0x1E000001 [put d 18, put s 11])
  | .vmovHi q d s => encodeA q (pack 0x1E000002 [put d 18, put s 11])
  | .vmovLane q d => encodeA q (pack 0x1E000003 [put d 18])
  | .vmovTid q d => encodeA q (pack 0x1E000004 [put d 18])
  | .plog q d a b t => encodeA q (pack 0x20000000 [put d 20, put a 15, put b 10, put t 0])
  | .elect q d => encodeA q (pack 0x20000010 [put d 20])
  | .vld q d b o z u => encodeM q (pack 0x22000000 [put d 18, put b 12, put o 5, put z 2, put u 0])
  | .vst q d b o z u => encodeM q (pack 0x24000000 [put d 18, put b 12, put o 5, put z 2, put u 0])
  | .vatom q d b o p => encodeM q (pack 0x26000000 [put d 18, put b 12, put o 5, put p 0])
  | .gath q d b o u => encodeM q (pack 0x28000008 [put d 18, put b 12, put o 5, put u 0])
  | .drdBlk q d a k => encodeA q (pack 0x2A000000 [put d 18, put a 11, put k 4])
  | .drdTrp q d a k => encodeA q (pack 0x2A000001 [put d 18, put a 11, put k 4])
  | .dwr q d a k => encodeA q (pack 0x2A000002 [put d 18, put a 11, put k 4])
  | .shfl q d a b s m => encodeA q (pack 0x2C000000 [put d 18, put a 11, put b 4, put s 2, put m 0])
  | .vred q d a s m => encodeA q (pack 0x2E000000 [put d 18, put a 11, put s 2, put m 0])
  | .vscan q d a s m => encodeA q (pack 0x30000000 [put d 18, put a 11, put s 2, put m 0])
  | .vote q d p s m => encodeA q (pack 0x32000000 [put d 18, put p 11, put s 2, put m 0])
  | .bcast q d a l s => encodeA q (pack 0x34000000 [put d 18, put a 11, put l 4, put s 2])
  | .mxissue q a => encodeA q (pack 0x36000000 [put a 11])
  | .accrd q d a => encodeA q (pack 0x38000000 [put d 18, put a 11])
  | .accwr q d a => encodeA q (pack 0x38000001 [put d 18, put a 11])
  | .jenr j o => [pack 0x3A000000 [put j 22, put o 0]]
  | .jwait j => [pack 0x3A200000 [put j 22]]
  | .brv p n o => [pack 0x3C000000 [put p 20, put n 19, put o 0]]
  | .exit q => encodeA q (pack 0x3E000000 [])
  | .spawn q a b => encodeA q (pack 0x40000000 [put a 12, put b 5])
  | .uadd d a b => [pack 0x80000000 [put d 19, put a 13, put b 7]]
  | .usub d a b => [pack 0x80000001 [put d 19, put a 13, put b 7]]
  | .umul d a b => [pack 0x80000002 [put d 19, put a 13, put b 7]]
  | .umulhI d a b => [pack 0x80000003 [put d 19, put a 13, put b 7]]
  | .umulhN d a b => [pack 0x80000004 [put d 19, put a 13, put b 7]]
  | .uand d a b => [pack 0x80000005 [put d 19, put a 13, put b 7]]
  | .uor d a b => [pack 0x80000006 [put d 19, put a 13, put b 7]]
  | .uxor d a b => [pack 0x80000007 [put d 19, put a 13, put b 7]]
  | .ushl d a b => [pack 0x80000008 [put d 19, put a 13, put b 7]]
  | .ushr d a b => [pack 0x80000009 [put d 19, put a 13, put b 7]]
  | .usar d a b => [pack 0x8000000A [put d 19, put a 13, put b 7]]
  | .uminI d a b => [pack 0x8000000B [put d 19, put a 13, put b 7]]
  | .uminN d a b => [pack 0x8000000C [put d 19, put a 13, put b 7]]
  | .umaxI d a b => [pack 0x8000000D [put d 19, put a 13, put b 7]]
  | .umaxN d a b => [pack 0x8000000E [put d 19, put a 13, put b 7]]
  | .umov d a => [pack 0x8000000F [put d 19, put a 13]]
  | .uaddi d a i => [pack 0x82000000 [put d 19, put a 13, put i 0]]
  | .uandi d a i => [pack 0x84000000 [put d 19, put a 13, put i 0]]
  | .uori d a i => [pack 0x86000000 [put d 19, put a 13, put i 0]]
  | .uxori d a i => [pack 0x88000000 [put d 19, put a 13, put i 0]]
  | .ushlImm d a n => [pack 0x8A000000 [put d 19, put a 13, put n 0]]
  | .ushrImm d a n => [pack 0x8A000800 [put d 19, put a 13, put n 0]]
  | .usarImm d a n => [pack 0x8A001000 [put d 19, put a 13, put n 0]]
  | .umovi d i => [pack 0x8C000000 [put d 19, put i 0]]
  | .ulit d h lit => [pack 0x8E000000 [put d 19, put h 18], lit.toNat]
  | .ufromv d i p => [pack 0x90000000 [put d 19, put i 12, put p 11]]
  | .uld d a z o => [pack 0x92000000 [put d 19, put a 13, put z 10, put o 0]]
  | .ust d a z o => [pack 0x94000000 [put d 19, put a 13, put z 10, put o 0]]
  | .uatom d a p s o => [pack 0x96000000 [put d 19, put a 13, put p 8, put s 5, put o 3]]
  | .fence s k => [pack 0x98000000 [put s 10, put k 8]]
  | .ub c a b o => [pack 0x9A000000 [put c 22, put a 16, put b 10, put o 0]]
  | .bra o => [pack 0x9C000000 [put o 0]]
  | .call o => [pack 0x9E000000 [put o 0]]
  | .jmpi a => [pack 0xA0000000 [put a 13]]
  | .ret => [pack 0xA007E000 []]
  | .bararr a b => [pack 0xA2000000 [put a 13, put b 7]]
  | .barwait a b => [pack 0xA2000800 [put a 13, put b 7]]
  | .barsync a b => [pack 0xA2001000 [put a 13, put b 7]]
  | .setw d e q => [pack 0xA4000000 [put d 19, put e 2, put q 0]]
  | .vshrink f c => [pack 0xA6000000 [put f 10, put c 0]]
  | .vgrow f c => [pack 0xA6000800 [put f 10, put c 0]]
  | .sread d s => [pack 0xA8000000 [put d 19, put s 0]]
  | .swrite a s => [pack 0xAA000000 [put a 13, put s 0]]
  | .trap c => [pack 0xAC000000 [put c 0]]
  | .tret k => [pack 0xAE000000 [put k 0]]
  | .bkpt => [pack 0xB0000000 []]
  | .nop => [pack 0xB2000000 []]
  | .waitc c n => [pack 0xB4000000 [put c 11, put n 0]]
  | .waitt d a l => [pack 0xB6000000 [put d 19, put a 13, put l 0]]
  | .tfirst d => [pack 0xB8000000 [put d 19]]
  | .tclr a => [pack 0xBA000000 [put a 13]]
  | .tdset t w s => [pack 0xBC000000 [put t 17, put w 14, put s 8]]
  | .tdget t w s => [pack 0xBE000000 [put t 17, put w 14, put s 8]]
  | .tdinv t => [pack 0xC0000000 [put t 17]]
  | .tdinvAll => [pack 0xC0010000 []]
  | .tdpool t i => [pack 0xC2000000 [put t 17, put i 0]]
  | .cpy d s b => [pack 0xC4000000 [put d 17, put s 9, put b 3]]
  | .wload w t s => [pack 0xC6000000 [put w 21, put t 13, put s 7]]
  | .mxmeta t s => [pack 0xC8000000 [put t 17, put s 11]]
  | .accld t a s => [pack 0xCA000000 [put t 17, put a 10, put s 4]]
  | .accst t a s => [pack 0xCC000000 [put t 17, put a 10, put s 4]]
  | .accz f n => [pack 0xCE000000 [put f 18, put n 11]]
  | .coll t b => [pack 0xD0000000 [put t 17, put b 11]]
  | .actld t => [pack 0xD2000000 [put t 17]]
  | .oapp d c n => [pack 0xD4000000 [put d 19, put c 13, put n 9]]
  | .odecl n => [pack 0xD6000000 [put n 9]]
  | .mbxwait m => [pack 0xD8000000 [put m 0]]
  | .mbxpop d m => [pack 0xDA000000 [put d 19, put m 0]]
  | .cwb d a s => [pack 0xDC000000 [put d 19, put a 13, put s 8]]
  | .cinv d a s => [pack 0xDC000800 [put d 19, put a 13, put s 8]]
  | .pref d a l => [pack 0xDC001000 [put d 19, put a 13, put l 8]]
  | .pathYield _ _ => []
  | .warpMoveIn _ _ => []
  | .warpPark _ _ => []
  | .parkedLineArrival _ _ => []
  | .warpMoveOutIdle _ _ => []
  | .warpMoveOutTenure _ _ => []
  | .bankSwap _ => []
  | .backgroundSpill _ _ => []
  | .deferredError => []
  | .spawnBinTimer _ _ => []
  | .gatherComplete _ => []
  | .copyBurst _ => []
  | .asyncCompletionReport _ => []
  | .permitRequest _ => []
  | .permitGrant _ => []
  | .permitWaitLimit _ => []
  | .mePassStart _ => []
  | .mePassEnd _ _ => []
  | .weightLoad _ => []
  | .actldFlip _ => []
  | .collStep _ _ _ => []
  | .collTimeout _ => []
  | .engineStop _ _ _ => []
  | .coreReset _ _ => []
  | .coreControlError _ => []
  | .quiesce _ _ => []
  | .quiesceTrapDelivery _ _ _ => []
  | .quiesceComplete _ _ => []
  | .quiesceBudgetExpire _ _ => []
  | .exportCtx _ _ => []
  | .pagex _ _ => []
  | .importCtx _ _ => []
  | .pagei _ _ => []
  | .resume _ _ => []
  | .dropCtx _ _ => []
  | .sliceReset _ => []
  | .flrVf _ => []
  | .flrPf0 _ => []
  | .s2Invalidation _ => []
  | .s1Invalidation _ _ => []
  | .invalidationComplete _ _ => []
  | .contextCreate _ _ => []
  | .contextRemove _ _ => []
  | .evtailWrite _ _ => []
  | .evstatWrite _ _ => []
  | .mailboxEnable _ _ _ => []
  | .mailboxDisable _ _ => []
  | .kick _ _ => []
  | .sealRetry _ _ => []
  | .fetchContinue _ _ => []
  | .launchRecord _ _ => []
  | .waitRecord _ _ => []
  | .waitConditionMet _ _ => []
  | .signalRecord _ _ => []
  | .messageRecord _ _ => []
  | .messageDelivery _ _ => []
  | .recordStart _ _ => []
  | .recordComplete _ _ => []
  | .teamPlacement _ => []
  | .placementReservation _ _ => []
  | .residentGridStart _ _ => []
  | .teamExit _ _ => []
  | .gridComplete _ _ => []
  | .clusterRetire _ _ => []
  | .powerUp => []
  | .coldReset => []
  | .deviceReset _ _ => []
  | .perst _ => []
  | .portLinkReturn _ => []
  | .hostAccessTimeout _ => []
  | .sensorUpdate _ _ => []
  | .powerWindowEnd _ => []
  | .laysemRead _ => []
  | .laysemWrite _ _ => []
  | .prepare _ _ => []
  | .commit _ _ => []
  | .abort _ _ => []
  | .layoutPhaseEnd => []
  | .olsanWatchdogReset => []
  | .fwVerify _ _ => []
  | .fwActivate _ _ => []
  | .dbgnonceRead _ => []
  | .debugUnlock _ _ => []
  | .healthReport _ => []
  | .keyRotation _ => []
  | .keySweepComplete _ => []
  | .migrationKeyProvision _ _ => []
  | .keyExchange _ _ => []
  | .getMeasurements _ => []
  | .lockInterfaceRequest _ => []
  | .startInterfaceRequest _ => []
  | .stopInterfaceRequest _ => []
  | .atsInvalidation _ _ => []
  | .xlateRequest _ => []
  | .xlateRelease _ => []
  | .routingEntryWrite _ _ _ => []
  | .ualinkRequest _ _ _ => []
  | .hostRequest _ _ => []
  | .ualinkPortDown _ => []
  | .deviceError => []
  | .registerWrite _ _ => []
  | .illegalInstruction _ => []
  | .portLinkDown _ => []
  | .storeBufferDrain _ _ _ => []
  | .memoryUncorrectableError _ _ => []
  | .registerEccError _ _ _ _ => []
  | .routingKeyInstall _ _ _ => []
  | .settingReachesCore _ _ _ => []

/-- The instruction has words: every row of the table but the events. -/
def Instr.hasWords (i : Instr) : Bool := !(encode i).isEmpty

/-- The first and second word of an instruction read back; words that are missing count as zero. -/
def decodeWords : List Nat → Except Illegal Instr
  | [] => decode 0 0
  | [w] => decode w 0
  | w :: x :: _ => decode w x

/-- The instruction of a word numbered as spec/opcode_table.json numbers it: the first word in the low 32 bits, a second
word of zeros after the table's bits. -/
def decodeTableWord (nbits w : Nat) : Option Instr :=
  let v := w % 2 ^ nbits
  match decodeBytes (wordBytes v ++ wordBytes (v / 2 ^ 32)) with
  | .ok (i, _) => some i
  | .error _ => none

end Sys2Proof
end

