-- ==== Sys2Proof/Machine/Fetch.lean ====
section
/-!
DEFINITION. Which warps can run (02 R28, R29; 03 R62; 10 R230-R243), the traps that events cause (10 R224, R228, R229), and the
fetch and decode of an instruction (04 R67-R69, R75).
-/
namespace Sys2Proof.Machine

/-- The warp holds an active slot (03 R62). -/
def isActive : Loc → Bool
  | .active _ => true
  | .waiting _ => false
  | .parked _ _ => false

/-- A stop line has not yet stopped this core (10 R231). -/
def coreStillRuns (x : Ctx) (core : Nat) : Bool :=
  match x.stop with
  | none => true
  | some st => st.units.contains (.core core)

/-- The team's grid has started its teams (09 R210): a resident grid starts them together. -/
def gridStarted (s : State) (w : Warp) (t : Team) : Bool :=
  match tfind (getSlice s w.slice).grids t.grid with
  | none => true
  | some g => g.running

/-- A warp can retire an instruction: its context runs or quiesces, no stop has reached its core, it is active in the running
bank, neither faulted nor held, and one of its lanes can run. -/
def warpCanRun (s : State) (core : Nat) (w : Warp) : Bool :=
  let x := getCtx s w.slice w.ctx
  (x.state == 2 || x.state == 4) && coreStillRuns x core && !w.faulted && !w.held && isActive w.loc &&
    (getCore s core).running == w.bank && gridStarted s w (getTeam s core w.team) && selectable w != 0

/-- The kernel has a quiesce handler (04 R89). -/
def hasQuiesce (t : Team) : Bool := bitOf t.header 20

/-- What a fetch gives: a word, a wait for a host port, or a failure (04 R69, 10 R237). -/
inductive Fetched where
  | word (w : Nat) (s : State)
  | waits
  | fails (f : LaneFail)

/-- The word at an address fetched by a warp (04 R67, R69): the form at the home of its line. Of a word stored into the code of a running
grid the spec lets a fetch give the old form too; the model always gives the one at home (log 98). -/
def fetchWord (s : State) (core sl ctx : Nat) (a : DWord) : Fetched :=
  match translate s (fetchUnit core) sl ctx a .fetch with
  | .error .waits => .waits
  | .error (.fail st k ia) => .fails (failOfTr .fetch a (.fail st k ia))
  | .error (.poison tag) => .fails (failOfTr .fetch a (.poison tag))
  | .ok (k, s1) =>
    if isPoisoned s1 k || reach s1 sl k == .refused then .fails (poisonFail s1 7 1 a k)
    else if reach s1 sl k == .waits then .waits
    else .word (bytesNat (freshBytes s1 sl k 4)) s1

/-- What the warp meets at its path's PC: an instruction, an illegal one (with its SUB), a failed fetch, or a wait. -/
inductive Met where
  | instr (i : Instr) (s : State)
  | illegal (sub : Nat) (s : State)
  | waits
  | fails (f : LaneFail)

/-- A decoded instruction, or the SUB of the illegal one. -/
def metOf (s : State) (r : Except Illegal Instr) : Met :=
  match r with
  | .ok i => .instr i s
  | .error e => .illegal e.sub s

/-- The instruction at an address fetched and decoded (04 R67, R75): a prefix or a ULIT takes the next word too, whose failed
fetch is the instruction's. -/
def meet (s : State) (core sl ctx : Nat) (pc : DWord) : Met :=
  match fetchWord s core sl ctx pc with
  | .waits => .waits
  | .fails f => .fails f
  | .word w0 s1 =>
    if needsSecond w0 then
      match fetchWord s1 core sl ctx (pc + 4) with
      | .waits => .waits
      | .fails f => .fails f
      | .word w1 s2 => metOf s2 (decode w0 w1)
    else metOf s1 (decode w0 0)

/-- The instruction at the head is a VGROW that has been dispatched and waits (03 R57). -/
def waitsToGrow (c : Cx) : Bool :=
  c.w.dispatch.isSome &&
    match meet c.s c.core c.w.slice c.w.ctx (pathPc c.w) with
    | .instr (.vgrow _ _) _ => true
    | _ => false

/-- An event trap taken at a handler (10 R224), or as a converted fault where there is none (10 R229). -/
def takeEvent (c : Cx) (w : Warp) (code info : Nat) (handler : DWord) : Out :=
  if handler = 0 then takeFault { c with w := w } code 0 info true w.path 0 none
  else .next (putWarp c.s c.core c.slot (enterHandler w (pathPc w) (causeWord code 0 info false false) w.path w.path handler))

/-- The event trap that the warp takes before its next retirement, if one is pending and TM is clear (10 R226, R228): quiesce,
regrant, threshold in ascending class, step. Of these the quiesce trap alone interrupts a VGROW that waits (03 R57). A quiesce trap of a kernel with no quiesce handler is not taken: the warp
stops as if its budget had ended (10 R229). -/
def eventTrap (c : Cx) : Option Out :=
  if c.w.tm then none
  else if c.w.qpend then
    if hasQuiesce c.t then some (takeEvent c { c.w with qpend := false, inQuiesce := true } 8 0 c.t.quiesceVa)
    else some (.next (putWarp c.s c.core c.slot { c.w with qpend := false, held := true }))
  else if waitsToGrow c then none
  else if c.w.regrant then some (takeEvent c { c.w with regrant := false } 4 0 c.w.trapBase)
  else
    match c.w.pendThr with
    | cls :: rest => some (takeEvent c { c.w with pendThr := rest } 7 cls c.w.trapBase)
    | [] => if c.w.stepDue then some (takeEvent c { c.w with stepDue := false } 3 0 c.w.trapBase) else none

/-- The instruction at the head of the warp's buffer is dispatched, with the core's next sequence number (03 R43; log 97); one that has
been dispatched keeps its own. -/
def dispatchHead (c : Cx) : Cx :=
  match c.w.dispatch with
  | some _ => c
  | none =>
    let k := getCore c.s c.core
    let w := { c.w with dispatch := some k.dispatches }
    { c with s := putWarp (putCore c.s c.core { k with dispatches := k.dispatches + 1 }) c.core c.slot w, w := w }

/-- The lanes of the path whose PC is a poisoned word (03 R54). -/
def poisonedPc (w : Warp) : LaneMask :=
  w.path &&& maskOf (fun l => w.wtPoison.contains (pcWord l) || w.wtPoison.contains (pcWord l + 1))

end Sys2Proof.Machine
end

