-- ==== Sys2Proof/Machine/Ringmaster.lean ====
section
/-!
DEFINITION. What a slice's ringmaster does on its own behalf (09 R195-R206): its writes and reads through stage 2, completion records,
and the errors of a mailbox.
-/
namespace Sys2Proof.Machine

/-- A host command, taken while the module accepts any. -/
def whenOpen (s : State) (k : Out) : Out := if accepts s then k else .next s

/-- A request to a slice's VF, taken while the VF is enabled. -/
def whenVf (s : State) (sl : Nat) (k : Out) : Out := if accepts s && vfEnabled s sl then k else .next s

/-- A ringmaster does something while its clock runs (01 R10, R12): not once the power is gone. -/
def whenClocked (s : State) (k : Out) : Out := if s.powerLatch then .next s else k

/-- Bytes of one line written by a ringmaster at a key (09 R205): a poisoned line takes none. A write that the device drops because
its port's link stayed down has no origin record (log 49). -/
def ringPut (s : State) (sl k : Nat) (bs : List Byte) : Except TrErr State :=
  if isPoisoned s k then .error (.poison (consumed s k))
  else
    match reach s sl k with
    | .waits => .error .waits
    | .refused => .ok s
    | .ok => .ok (putHome s sl k bs)

/-- Bytes of one line written by a ringmaster at an intermediate address (09 R205). -/
def ringWrite (s : State) (sl ia : Nat) (bs : List Byte) : Except TrErr State :=
  match translate2 s (ringUnit sl) sl ia .write with
  | .error e => .error e
  | .ok (k, s1) => ringPut s1 sl k bs

/-- Bytes of one line read by a ringmaster at an intermediate address (09 R195). -/
def ringRead (s : State) (sl ia n : Nat) : Except TrErr (List Byte × State) :=
  match translate2 s (ringUnit sl) sl ia .read with
  | .error e => .error e
  | .ok (k, s1) =>
    if isPoisoned s1 k || reach s1 sl k == .refused then .error (.poison (consumed s1 k))
    else if reach s1 sl k == .waits then .error .waits
    else .ok (freshBytes s1 sl k n, l2Read s1 sl k)

/-- A whole line written at an intermediate address, which takes the place of a poisoned one (10 R237); one that the device drops because its
port's link stayed down is not there (11 R258). -/
def lineWrite (s : State) (sl ia : Nat) (bs : List Byte) : Except TrErr State :=
  match translate2 s (ringUnit sl) sl ia .write with
  | .error e => .error e
  | .ok (k, s1) =>
    match reach s1 sl k with
    | .waits => .error .waits
    | .refused => .error (.poison none)
    | .ok => .ok (putHome s1 sl k bs)

/-- Lines written one after another from an intermediate address up, as far as each can be. -/
def linesWrite (sl ia : Nat) : List (List Byte) → State → Except TrErr State
  | [], s => .ok s
  | bs :: t, s =>
    match lineWrite s sl ia bs with
    | .error e => .error e
    | .ok s1 => linesWrite sl (ia + 128) t s1

/-- Lines read one after another from an intermediate address up. -/
def linesRead (sl : Nat) : Nat → Nat → State → Except TrErr (List Byte × State)
  | _, 0, s => .ok ([], s)
  | ia, n + 1, s =>
    match ringRead s sl ia 128 with
    | .error e => .error e
    | .ok (bs, s1) =>
      match linesRead sl (ia + 128) n s1 with
      | .error e => .error e
      | .ok (r, s2) => .ok (bs ++ r, s2)

/-- Lines of a save area behind its sump, encrypted under the slice's key: they are free (log 18). -/
def areaLines (fresh n : Nat) : List (List Byte) :=
  (List.range ((n + 127) / 128)).map (fun i => (List.range 128).map (fun j => Config.areaByte fresh (128 * i + j)))

/-- Bytes put into a context's save area after its sump (06 R145, 10 R244, 11 R263), none beyond SAVESIZE; or what kept one of their lines from
being written. -/
def writeArea (s : State) (sl ctx n : Nat) : Except TrErr State :=
  let x := getCtx s sl ctx
  linesWrite sl (x.saveBase.toNat + 32768) (areaLines s.fresh (min n (x.saveSize.toNat - 32768))) { s with fresh := s.fresh + 1 }

/-- A mailbox of a slice. -/
def getMbox (s : State) (sl m : Nat) : Mailbox := tget {} (getSlice s sl).mboxes m

/-- A mailbox of a slice replaced. -/
def putMbox (s : State) (sl m : Nat) (b : Mailbox) : State :=
  putSlice s sl { getSlice s sl with mboxes := tset (getSlice s sl).mboxes m b }

/-- A word of a record. -/
def recWord (h : Held) (i : Nat) : Nat := (h.words.getD i 0).toNat

/-- The usable completion address of a record (09 R199, R203). -/
def complAddr (h : Held) : Option Nat := if recWord h 1 = 0 ∨ recWord h 1 % 16 ≠ 0 then none else some (recWord h 1)

/-- The context that a launch record names (09 R200). -/
def recCtx (h : Held) : Nat := recWord h 5 % 2 ^ 16

/-- A held record of a mailbox. -/
def findHeld (s : State) (sl m seq : Nat) : Option Held := (getMbox s sl m).held.find? (fun h => h.seq == seq)

/-- A held record changed. -/
def modHeld (s : State) (sl m seq : Nat) (f : Held → Held) : State :=
  let b := getMbox s sl m
  putMbox s sl m { b with held := b.held.map (fun h => if h.seq = seq then f h else h) }

/-- The kind of a record (09 R199). -/
def recKind (h : Held) : Nat := recWord h 0 % 256

/-- A mailbox belongs to a running resident grid (09 R210). -/
def ownerOf (x : Slice) (m : Nat) : Option (Nat × Grid) := x.grids.find? (fun g => ownsMailbox g.2 m)

/-- The first offending word of a record as its start finds it (09 R203): its format, its context, its mailbox mask. -/
def recordError (s : State) (sl : Nat) (h : Held) : Option Nat :=
  let x := getSlice s sl
  let ctx := recCtx h
  let state := (getCtx s sl ctx).state
  let noCtx := recKind h == 0 && (decide (16 ≤ ctx) || state == 0 || state == 6)
  let taken := recKind h == 0 && (List.range 64).any (fun m => bitOf (recWord h 14) m && (ownerOf x m).isSome)
  match h.bad with
  | some i => if noCtx && decide (5 < i) then some 5 else some i
  | none => if noCtx then some 5 else if taken then some 14 else none

/-- A started record keeps the later ones of its mailbox waiting (09 R206): until it counts as complete, or, for a launch whose grid has
stopped, until ENABLE is clear (09 R219). -/
def keepsLater (e : Held) : Bool := e.started && !e.complete && !e.released

/-- A launch whose grid has stopped or has gone with its context (09 R219, 11 R264). -/
def gridStopped (s : State) (sl : Nat) (e : Held) : Bool :=
  !e.done && !e.complete && e.grid.any (fun g => (tfind (getSlice s sl).grids g).isNone || (getCtx s sl (recCtx e)).stop.any (fun st => st.closed))

/-- A mailbox's launches whose grids have stopped keep nothing waiting while ENABLE is clear (09 R219). -/
def releaseStopped (s : State) (sl m : Nat) : State :=
  let b := getMbox s sl m
  if b.enable then s
  else putMbox s sl m { b with held := b.held.map (fun h => if gridStopped s sl h then { h with released := true } else h) }

/-- The record that a mailbox starts next (09 R206, R219): the oldest one not started, once none before it keeps it waiting. -/
def nextRecord (b : Mailbox) : Option Held :=
  match b.held.find? (fun h => !h.started) with
  | none => none
  | some h => if b.held.any keepsLater then none else some h

/-- A record may start (09 R203, 10 R230): one that names a context needs it idle or running, with no stop line. -/
def mayStart (s : State) (sl : Nat) (h : Held) : Bool :=
  recKind h != 0 || (recordError s sl h).isSome ||
    (let x := getCtx s sl (recCtx h); (x.state == 1 || x.state == 2) && x.stop.isNone)

/-- The started record of a mailbox that is of a kind and has no outcome yet. -/
def activeRecord (s : State) (sl m kind : Nat) : Option Held :=
  (getMbox s sl m).held.find? (fun h => h.started && !h.done && !h.complete && h.grid.isNone && !h.delivered && recKind h == kind)

/-- A started record that waits (09 R201, R203): a wait record, or a launch whose context may not run it yet. -/
def waitingRecord (s : State) (sl m : Nat) : Option Held :=
  (activeRecord s sl m 1).or ((activeRecord s sl m 0).filter (fun h => !mayStart s sl h))

/-- ENABLE clears (09 R203, R219): nothing more is fetched, and a waiting wait record, or a record that waits for its context, completes with
status 4. -/
def clearEnable (s : State) (sl m : Nat) : State :=
  let s1 := releaseStopped (putMbox s sl m { getMbox s sl m with enable := false, fetch := none, paused := false }) sl m
  let s2 := match waitingRecord s1 sl m with
    | none => s1
    | some h => finishHeld s1 sl m h.seq 4 0
  match nextRecord (getMbox s2 sl m) with
  | none => s2
  | some h =>
    if mayStart s2 sl h then s2 else modHeld s2 sl m h.seq (fun h => { h with started := true, done := true, status := 4, detail := 0 })

/-- A fault of a ring read or a ringmaster write (09 R195, R205): ENABLE clears, ERR and its code are set, and the mailbox-error
vector is raised. -/
def mailboxFault (s : State) (sl m code : Nat) : State :=
  let s1 := clearEnable s sl m
  let b := getMbox s1 sl m
  raiseEvent (putMbox s1 sl m { b with err := true, errcode := code, halted := b.halted || code == 4 }) sl 4 0 0 0 m 0

/-- A ringmaster write that faults (09 R205): the host is told of a fault at stage 2. -/
def writeFault (s : State) (sl m ctx : Nat) (e : TrErr) : State := reportTr (mailboxFault s sl m 4) sl ctx e

/-- The vector of a record raised, where it asks for one (09 R199). -/
def recVector (s : State) (sl : Nat) (h : Held) : State := if bitOf (recWord h 0) 17 then raiseVector s sl (bits (recWord h 0) 23 18) else s

/-- The completion record (09 R204). -/
def completionBytes (seq : Nat) (status detail : Nat) : List Byte := natBytes 8 seq ++ natBytes 4 status ++ natBytes 4 detail

/-- A status written for a record (09 R199, R203-R205): with no usable address, only a final status shows, as the vector, and status 4 as
ERRCODE 2, at a clear of ENABLE too. With one, the vector is raised at each write of it, of statuses 6 and 3 too; the event of a write that
faults at stage 2 names the context of word 5, whatever the kind (log 128). None while a port does not answer. -/
def postStatus (s : State) (sl m : Nat) (h : Held) (status detail : Nat) (final : Bool) : Option State :=
  match complAddr h with
  | none =>
    let s1 := if status = 4 then putMbox s sl m { getMbox s sl m with err := true, errcode := 2 } else s
    some (if final then recVector s1 sl h else s1)
  | some ia =>
    match ringWrite s sl ia (completionBytes h.seq status detail) with
    | .error .waits => none
    | .error e => some (writeFault s sl m (recCtx h) e)
    | .ok s1 => some (recVector s1 sl h)

/-- The outcome of a grid that came with an import (09 R204, 11 R264; log 76): its launch record's completion record and vector, on the slice
where it runs. None while a port does not answer. -/
def postMoved (s : State) (sl : Nat) (h : Held) (status detail : Nat) (final : Bool) : Option State :=
  match complAddr h with
  | none => some (if final then recVector s sl h else s)
  | some ia =>
    match ringWrite s sl ia (completionBytes h.seq status detail) with
    | .error .waits => none
    | .error e => some (reportTr s sl (recCtx h) e)
    | .ok s1 => some (recVector s1 sl h)

/-- The messages of a grid that were delivered and not popped have no receiver (09 R211). -/
def loseMessages (s : State) (sl : Nat) (g : Grid) : State :=
  g.msgs.foldl (fun s m => m.2.waiting.foldl (fun s q => finishHeld s sl m.1 q 5 0) s) s

/-- The messages held in a mailbox whose grid exits (09 R211; log 123): the one that waits to be delivered completes now, those behind it as
they start; what stands behind a resident launch still to start is that launch's. -/
def orphanHeld : List Held → List Held
  | [] => []
  | h :: t =>
    if recKind h == 0 && bitOf (recWord h 0) 16 && !h.started then h :: t
    else if recKind h == 3 && !h.delivered && !h.done && !h.complete then
      (if h.started then { h with done := true, status := 5, detail := 0 } else { h with orphan := true }) :: orphanHeld t
    else h :: orphanHeld t

/-- The messages of the mailboxes that a resident grid owns, as it exits (09 R211). -/
def orphanMessages (s : State) (sl : Nat) (g : Grid) : State :=
  (List.range 64).foldl (fun s m =>
    if ownsMailbox g m then putMbox s sl m { getMbox s sl m with held := orphanHeld (getMbox s sl m).held } else s) (loseMessages s sl g)

/-- The records complete in full leave the mailbox's head, and LASTDONE follows (09 R195, R206). -/
def dropFull : List Held → DWord → List Held × DWord
  | [], q => ([], q)
  | h :: t, q => if h.full then dropFull t (BitVec.ofNat 64 h.seq) else (h :: t, q)

/-- A record after its status is written: complete, and in full but for a resident grid that runs (09 R206). -/
def closeHeld (h : Held) : Held := { h with done := false, complete := true, full := h.status != 6 }

/-- A record's outcome written, and the mailbox after it (09 R204, R206); none while a port does not answer. -/
def completeHeld (s : State) (sl m : Nat) (h : Held) : Option State :=
  match postStatus s sl m h h.status h.detail (h.status != 6) with
  | none => none
  | some s1 =>
    let s2 := modHeld s1 sl m h.seq closeHeld
    let b := getMbox s2 sl m
    let r := dropFull b.held b.lastdone
    some (putMbox s2 sl m { b with held := r.1, lastdone := r.2 })

/-- The grids of a context that run. -/
def gridsOf (s : State) (sl ctx : Nat) : List (Nat × Grid) := (getSlice s sl).grids.filter (fun g => g.2.ctx == ctx)

/-- A context's state follows its grids (11 R263): idle with none, running with one. -/
def settleCtx (s : State) (sl ctx : Nat) : State :=
  let x := getCtx s sl ctx
  if x.state = 1 ∨ x.state = 2 then putCtx s sl ctx { x with state := if (gridsOf s sl ctx).isEmpty then 1 else 2 } else s

end Sys2Proof.Machine
end

