-- ==== Sys2Proof/Machine/Spawn.lean ====
section
/-!
DEFINITION. SPAWN and the spawn bins (02 R38, R39; 14 R346).
-/
namespace Sys2Proof.Machine

/-- The bin that takes a thread (02 R38): the one bound to its triple, else the first empty one of the 16. One that is full, whose context's
stop keeps it from launching, takes no more. -/
def binFor (bins : Tbl Bin) (ctx grid : Nat) (entry : DWord) (grant : Nat) : Option Nat :=
  match bins.find? (fun b => b.2.ctx == ctx && b.2.grid == grid && b.2.entry == entry && b.2.grant == grant &&
      decide (b.2.threads.length < grant)) with
  | some b => some b.1
  | none => tfree bins 16 0

/-- A bin's threads handed to the ringmaster as a team's batch (02 R38, 14 R346): the bin is empty again. -/
def launchBin (s : State) (core sl b : Nat) : State :=
  match tfind (getCore s core).bins b with
  | none => s
  | some x =>
    let s1 := putCore s core { getCore s core with bins := tdel (getCore s core).bins b }
    putSlice s1 sl { getSlice s1 sl with batches := (getSlice s1 sl).batches ++ [{ core := core, bin := x }] }

/-- Bins of a context launch (10 R230, R242): it runs, and no stop line is up. -/
def binsLaunch (s : State) (sl ctx : Nat) : Bool := (getCtx s sl ctx).stop.isNone && (getCtx s sl ctx).state == 2

/-- One thread enters a bin, which launches when it holds as many threads as its grant (02 R38). -/
def placeThread (s : State) (c : Cx) (b : Nat) (entry : DWord) (th : SpawnThread) : State :=
  let x : Bin := match tfind (getCore s c.core).bins b with
    | some x => x
    | none => { ctx := c.w.ctx, grid := c.t.grid, entry := entry, grant := c.w.grant, threads := [] }
  let x1 := { x with threads := x.threads ++ [th] }
  let s1 := putCore s c.core { getCore s c.core with bins := tset (getCore s c.core).bins b x1 }
  if binsLaunch s c.w.slice c.w.ctx && decide (c.w.grant ≤ x1.threads.length) then launchBin s1 c.core c.w.slice b else s1

/-- The entry address that a lane names (14 R346): the pair's words, low first. -/
def spawnEntry (w : Warp) (r l : Nat) : DWord := readLane w (r + 1) l ++ readLane w r l

/-- The lanes place their threads in ascending order (14 R346), as far as bins are free: the state, the lanes placed, and whether
every lane is. -/
def spawnLanes (c : Cx) (e r : Nat) : List Nat → State × LaneMask → State × LaneMask × Bool
  | [], (s, m) => (s, m, true)
  | l :: t, (s, m) =>
    match binFor (getCore s c.core).bins c.w.ctx c.t.grid (spawnEntry c.w e l) c.w.grant with
    | none => (s, m, false)
    | some b =>
      spawnLanes c e r t (placeThread s c b (spawnEntry c.w e l) { arg0 := readLane c.w r l, arg1 := readLane c.w (r + 1) l },
        m ||| oneLane l)

/-- SPAWN (14 R346): a release at .sl, so older stores reach home first. A stall keeps the threads already placed, which the placed
bits record. -/
def execSpawn (q : Option APre) (a b : BitVec 6) (s : State) : Out :=
  withCx s fun c =>
    let act := activeA c.w q
    let e := 2 * a.toNat
    let r := 2 * b.toNat
    c.vchecks act 0 [] [(e, 2), (r, 2)] [e, e + 1, r, r + 1] [] (guardRegA q)
      (let bad := maskOf (fun l => act.getLsbD l && ((spawnEntry c.w e l).toNat % 4 != 0 || !canonical (spawnEntry c.w e l)))
       if c.w.det then c.fault 0x28 0 0 act
       else if bad != 0 then c.illegalOperand 3 bad
       else
         match drainScope c.s c.core c.w.slice 4 with
         | none => c.stall
         | some s1 =>
           let (s2, m, done) := spawnLanes c e r (lanesOf (act &&& ~~~c.w.placed)) (s1, c.w.placed)
           if done then c.retireIn (acquireCopies s2 c.core c.w.slice 4) (advance (lenOf q) { bump c.w with placed := 0 })
           else .next (putWarp s2 c.core c.slot { c.w with placed := m }))

end Sys2Proof.Machine
end

