-- ==== Sys2Proof/Machine/Warps.lean ====
section
/-!
DEFINITION. The scheduler's events (02 R29, R38; 03 R49, R54, R62-R66; 05 R112; 10 R240, R241): path yields, moves between the fast and
slow files, bank swaps, spawn-bin timers, store drains, register errors and settings that reach a core.
-/
namespace Sys2Proof.Machine

/-- PATH_YIELD (02 R29): the next path above takes over, and the yielding one waits. -/
def execPathYield (core slot : Nat) (s : State) : Out :=
  match getWarp s core slot with
  | none => .next s
  | some w =>
    if yieldDue w && warpCanRun s core w then
      match yieldTarget w with
      | none => .next s
      | some l => .next (putWarp s core slot (selectPc w (pcOf w l)))
    else .next s

/-- The context's warps of a core may be moved: it runs or quiesces. -/
def ctxMoves (s : State) (w : Warp) : Bool := (getCtx s w.slice w.ctx).state == 2 || (getCtx s w.slice w.ctx).state == 4

/-- A warp of a core could retire an instruction but for its place (02 R40): it has a lane that can run, and nothing stops it. -/
def couldRun (s : State) (core : Nat) (w : Warp) : Bool :=
  ctxMoves s w && coreStillRuns (getCtx s w.slice w.ctx) core && !w.faulted && !w.held && gridStarted s w (getTeam s core w.team) &&
    selectable w != 0

/-- A waiting warp of a core is ready (03 R62): it could run and is not parked, but for a quiesce trap that it is to take (10 R242). -/
def isReady (s : State) (core : Nat) (w : Warp) : Bool :=
  match w.loc with
  | .active _ => false
  | .waiting _ => couldRun s core w
  | .parked _ _ => w.qpend && !w.tm && couldRun s core w

/-- How long a warp has waited, as the number of its turn to wait. -/
def waitSeqOf (w : Warp) : Nat :=
  match w.loc with
  | .active _ => 0
  | .waiting n => n
  | .parked n _ => n

/-- The ready warp of a bank context that has waited longest (03 R62). -/
def longestReady (s : State) (core bank : Nat) : Option (Nat × Warp) :=
  ((getCore s core).warps.filter (fun e => e.2.bank == bank && isReady s core e.2)).foldl
    (fun r e => match r with
      | none => some e
      | some b => if waitSeqOf e.2 < waitSeqOf b.2 then some e else r) none

/-- An active slot of a bank context is taken (03 R62). -/
def slotTaken (c : Core) (bank k : Nat) : Bool := c.warps.any (fun e => e.2.bank == bank && inFast e.2 && e.2.loc == .active k)

/-- The lowest free active slot of a bank context. -/
def freeSlot (c : Core) (bank : Nat) : Option Nat := (List.range 8).find? (fun k => !slotTaken c bank k)

/-- The fast file of a bank context has room for a warp (03 R42). -/
def fastRoom (s : State) (core bank : Nat) (w : Warp) : Bool :=
  decide (fastHeld (getCore s core) bank + (w.areg + 32) * w.grant / 16 ≤ fastQuarters)

/-- A ready warp can move into an active slot of a bank context (03 R42, R62). -/
def movesIn (s : State) (core bank : Nat) : Bool :=
  (freeSlot (getCore s core) bank).isSome && (longestReady s core bank).any (fun e => fastRoom s core bank e.2)

/-- WARP_MOVE_IN (03 R42, R62). -/
def execWarpMoveIn (core bank : Nat) (s : State) : Out :=
  match longestReady s core bank, freeSlot (getCore s core) bank with
  | some (slot, w), some k => if fastRoom s core bank w then .next (putWarp s core slot { w with loc := .active k }) else .next s
  | _, _ => .next s

/-- A warp leaves its active slot and waits, with no unretired instruction (03 R62, R64). -/
def moveOut (s : State) (core slot : Nat) (w : Warp) (loc : Nat → Loc) : State :=
  let c := getCore s core
  let b := c.bank w.bank
  let s1 := putCore s core (c.putBank w.bank { b with waitSeq := b.waitSeq + 1 })
  putWarp s1 core slot { discard w with loc := loc b.waitSeq }

/-- The keys that the load at a warp's path reads, lane by lane, the bytes of each access, and the scope it acquires at; none for another
instruction (03 R63). -/
def headLoad (c : Cx) : List Nat × Nat × Nat :=
  let keys := fun (as : List DWord) => as.filterMap (fun a =>
    match translate c.s c.core c.w.slice c.w.ctx a .read with
    | .error _ => none
    | .ok (k, _) => some k)
  match meet c.s c.core c.w.slice c.w.ctx (pathPc c.w) with
  | .instr (.vld q _ b o z u) _ =>
    (keys ((lanesOf (activeM c.w q)).map (vmAddr c.w b.toNat o.toNat u.toNat (vmSize z.toNat) (offOf q))), vmSize z.toNat, (acqOf q).getD 0)
  | .instr (.uld _ a z o) _ => (keys [uAddr c.w a.toNat (uSize z.toNat) o], uSize z.toNat, 0)
  | _ => ([], 0, 0)

/-- One access of a load misses the L1 (03 R48, R63): some byte is in no retired store, and its line has no clean copy, or the load
acquires at .cl or wider and so reads none (08 R179). -/
def missesAt (c : Cx) (n acq k : Nat) : Bool :=
  let core := getCore c.s c.core
  (decide (3 ≤ acq) || (tfind core.clean (lineOf k)).isNone) && (List.range n).any (fun i => (newestByte core (k + i)).isNone)

/-- The first line that the load at a warp's path misses in the L1 (03 R63). -/
def missedLine (c : Cx) : Option Nat :=
  let (keys, n, acq) := headLoad c
  (keys.find? (missesAt c n acq)).map lineOf

/-- WARP_PARK (03 R63): an active warp whose next instruction is a load that misses; one that has returned from parking is not parked
on the same instruction again. -/
def execWarpPark (core slot : Nat) (s : State) : Out :=
  match getWarp s core slot with
  | none => .next s
  | some w0 =>
    let w := ensurePath w0
    if !warpCanRun s core w || w.parkedOn == some (pathPc w) then .next s
    else
      match missedLine { s := s, core := core, slot := slot, w := w, t := getTeam s core w.team } with
      | none => .next s
      | some line => .next (moveOut s core slot { w with parkedOn := some (pathPc w) } (fun n => .parked n line))

/-- PARKED_LINE_ARRIVAL (03 R63): the line is in the L1, and the warp is ready. -/
def execParkedLineArrival (core slot : Nat) (s : State) : Out :=
  match getWarp s core slot with
  | none => .next s
  | some w =>
    match w.loc with
    | .active _ => .next s
    | .waiting _ => .next s
    | .parked n line =>
      if reach s w.slice line == .waits then .next s
      else .next (putWarp (fillLine s core w.slice line 0) core slot { w with loc := .waiting n })

/-- A ready warp waits, and no active slot is free for it (03 R64) or the fast file has no room for it (03 R42; log 114). -/
def slotWanted (s : State) (core bank : Nat) : Bool :=
  (longestReady s core bank).any (fun e => (freeSlot (getCore s core) bank).isNone || !fastRoom s core bank e.2)

/-- An active warp of a bank context that cannot run and so retires nothing (03 R64). -/
def idleActive (s : State) (core bank : Nat) : Option Nat :=
  ((getCore s core).warps.find? (fun e => e.2.bank == bank && inFast e.2 && !couldRun s core e.2)).map (fun e => e.1)

/-- An active warp gives up its slot to a ready one (03 R64). -/
def giveSlot (s : State) (core slot : Nat) : Out :=
  match getWarp s core slot with
  | none => .next s
  | some w => if inFast w && slotWanted s core w.bank then .next (moveOut s core slot w .waiting) else .next s

/-- WARP_MOVE_OUT_IDLE (03 R64). -/
def execWarpMoveOutIdle (core slot : Nat) (s : State) : Out := giveSlot s core slot

/-- WARP_MOVE_OUT_TENURE (03 R64). -/
def execWarpMoveOutTenure (core slot : Nat) (s : State) : Out := giveSlot s core slot

/-- The highest priority of a context's grids (09 R195, R207). -/
def ctxPrio (s : State) (sl ctx : Nat) : Nat :=
  let x := getSlice s sl
  (x.grids.map (fun g => if g.2.ctx = ctx then (tget {} x.mboxes g.2.mbox).prio + 1 else 0)).foldl max 0

/-- Some warp of a bank context could run on the core. -/
def bankHasWork (s : State) (core bank : Nat) : Bool :=
  (getCore s core).warps.any (fun e => e.2.bank == bank && couldRun s core e.2)

/-- Accumulator tiles that the teams of a bank context hold (06 R142). -/
def tilesOf (c : Core) (bank : Nat) : Nat := (c.teams.map (fun e => if e.2.bank = bank then e.2.accB else 0)).sum

/-- The two bank contexts' tiles do not fit together, so that a swap spills the outgoing ones (06 R145). -/
def tilesSpill (c : Core) : Bool := decide (128 < tilesOf c 0 + tilesOf c 1)

/-- A matrix operation suspended (06 R144, R145, R437): its permit goes. A WLOAD that has begun runs to its end within its step, so
one that is still in flight has not begun. -/
def suspendOp (o : AsyncOp) : AsyncOp := { o with suspended := true, permit := .none }

/-- A matrix operation whose tiles a swap spills (06 R145, R437): its record goes to the save area; a WLOAD stays queued in the booth. -/
def spillOp (o : AsyncOp) : AsyncOp :=
  { suspendOp o with away := match o.kind with
    | .wload _ _ _ _ => false
    | _ => true }

/-- A matrix operation that goes on (06 R145): one that was away enters the booth as it has room. -/
def returnOp (o : AsyncOp) : AsyncOp := { o with suspended := false }

/-- The matrix operations of a bank context of a core changed. -/
def modBooth (s : State) (core bank : Nat) (f : AsyncOp → AsyncOp) : State :=
  { s with ops := tmap s.ops (fun _ o => if o.cls = 1 && o.core == core && o.bank == bank && !o.finished then f o else o) }

/-- The core should switch to its other bank context (10 R240): that one has work, and has higher priority or the running one has
none or is stopped. A stopped context is not swapped in (10 R232). -/
def swapWanted (s : State) (core : Nat) : Bool :=
  let c := getCore s core
  match sliceOfCore s core, (c.bank (1 - c.running)).owner with
  | some sl, some ctx =>
    bankHasWork s core (1 - c.running) && (getCtx s sl ctx).stop.isNone &&
      (match (c.bank c.running).owner with
        | none => true
        | some old => !bankHasWork s core c.running || (getCtx s sl old).stop.isSome || decide (ctxPrio s sl old < ctxPrio s sl ctx))
  | _, _ => false

/-- The records and tiles of a bank context spilled to its context's save area (06 R145; log 18): a fault of the area is told to the host, and
the tiles come back as they were (log 124). None while a port of the area does not answer (11 R258). -/
def spillTiles (s : State) (core sl bank : Nat) : Option State :=
  match ((getCore s core).bank bank).owner with
  | none => some s
  | some ctx =>
    let n := (s.ops.filter (fun e => e.2.cls == 1 && e.2.core == core && e.2.bank == bank && !e.2.finished)).length
    let s1 := modBooth s core bank spillOp
    match writeArea s1 sl ctx (512 * n + 65536 * tilesOf (getCore s core) bank) with
    | .ok s2 => some s2
    | .error .waits => none
    | .error e => some (reportTr s1 sl ctx e)

/-- The warps of a bank context of a core lose their unretired instructions (03 R65, 10 R240). -/
def discardBank (s : State) (core bank : Nat) : State :=
  putCore s core { getCore s core with
    warps := tmap (getCore s core).warps (fun _ w => if w.bank = bank then discard w else w) }

/-- BANK_SWAP (03 R65; 10 R240; 06 R145): the outgoing warps lose their unretired instructions, the outgoing context's matrix operations are suspended where its tiles are spilled, and those of
the incoming one go on, but for a context that quiesces (10 R242). -/
def execBankSwap (core : Nat) (s : State) : Out :=
  if !swapWanted s core then .next s
  else
    let c := getCore s core
    let inn := 1 - c.running
    let ctx := ((c.bank inn).owner).getD 0
    let sl := (sliceOfCore s core).getD 0
    let quiet := (getCtx s sl ctx).state == 4
    match if tilesSpill c then spillTiles s core sl c.running else some s with
    | none => .next s
    | some s1 =>
      let s2 := discardBank (if quiet then s1 else modBooth s1 core inn returnOp) core c.running
      .next (putCore s2 core ({ getCore s2 core with running := inn }.putBank c.running { c.bank c.running with spilled := false }))

/-- BACKGROUND_SPILL (03 R65): the outgoing bank's registers reach their homes; no register changes. -/
def execBackgroundSpill (core bank : Nat) (s : State) : Out :=
  let c := getCore s core
  if c.running = bank || (c.bank bank).spilled then .next s
  else .next (putCore s core (c.putBank bank { c.bank bank with spilled := true }))

/-- SPAWN_BIN_TIMER (02 R38): a bin that holds threads launches; a stopped context launches none (10 R230). -/
def execSpawnBinTimer (core bin : Nat) (s : State) : Out :=
  match tfind (getCore s core).bins bin, sliceOfCore s core with
  | some b, some sl =>
    if binsLaunch s sl b.ctx then .next (launchBin s core sl bin) else .next s
  | _, _ => .next s

/-- A retired store may reach its home ahead of the rest (08 R178, R182): no older one that goes before it waits. -/
def mayLand (p : List PStore) (i : Nat) : Bool :=
  match p[i]? with
  | none => false
  | some e => (p.take i).all (fun f => !goesBefore f e)

/-- A store-buffer entry moves into the L1 (03 R49), which allocates its line (07 R149); with the no-allocate hint it stays on its way to
the home, and so it does where the L1 has no room. -/
def settleStore (s : State) (core index : Nat) (e : PStore) : State :=
  if e.hint = 3 then s
  else
    match l1Room (getCore s core) e.line with
    | none => s
    | some c => fillLine (putCore s core { c with pend := intoL1 c.pend index }) core e.origin.slice e.line e.hint

/-- STORE_BUFFER_DRAIN (03 R49, 08 R178): a retired store moves into the L1, or reaches its home. -/
def execStoreBufferDrain (core index : Nat) (home : Bool) (s : State) : Out :=
  let c := getCore s core
  match c.pend[index]? with
  | none => .next s
  | some e =>
    if !home then .next (settleStore s core index e)
    else if !mayLand c.pend index || landWaits s e then .next s
    else .next (landStore (putCore s core { c with pend := c.pend.eraseIdx index }) core e)

/-- SETTING_REACHES_CORE (05 R112): the core acts on the context's settings of a class from now on. -/
def execSettingReachesCore (core ctx cls : Nat) (s : State) : Out :=
  match sliceOfCore s core with
  | none => .next s
  | some sl =>
    let x := getCtx s sl ctx
    .next (excPut s core ctx (cls % 8) { excGet s core sl ctx (cls % 8) with
      thr := x.thr.getD (cls % 8) 0, win := x.win.getD (cls % 8) 0, act := x.act.getD (cls % 8) 0 })

/-- A number added to a list once. -/
def addOnce (l : List Nat) (k : Nat) : List Nat := if l.contains k then l else l ++ [k]

/-- A word of a warp's registers takes an uncorrectable error (03 R54). v and deep words are numbered register × 64 + lane, the
warp table's as `tableWords` numbers them, accumulator elements within the team's tiles. -/
def poisonWord (w : Warp) (file : RegFile) (key : Nat) : Warp :=
  match file with
  | .v => if key / 64 < w.areg then { w with vPoison := tset w.vPoison (key / 64) (tget 0 w.vPoison (key / 64) ||| oneLane (key % 64)) } else w
  | .deep => if key / 64 < w.deep then { w with dPoison := addOnce w.dPoison key } else w
  | .warpTable => if (key < 2176 : Bool) then { w with wtPoison := addOnce w.wtPoison key } else w
  | .acc => w

/-- REGISTER_ECC_ERROR (03 R54). -/
def execRegisterEccError (core slot : Nat) (file : RegFile) (key : Nat) (s : State) : Out :=
  match getWarp s core slot with
  | none => .next s
  | some w =>
    let t := getTeam s core w.team
    let s1 := putWarp s core slot (poisonWord w file key)
    if file = .acc && decide (key < t.accB * 16384) then
      .next (putTeam s1 core w.team { t with accPoison := addOnce t.accPoison key })
    else .next s1

end Sys2Proof.Machine
end

