-- ==== Sys2Proof/Machine/Engines.lean ====
section
/-!
DEFINITION. The steps of the gather units and copy engines, and the reports of completions (05 R111; 06 R141; 07 R159-R167; 09 R216; 13
R300, R306; 14 R336).
-/
namespace Sys2Proof.Machine

/-- What a step of an operation answers while it cannot go on, or once it has made its changes. -/
def opStep (s : State) (id : Nat) (k : AsyncOp → Option State) : Out :=
  match findOp s id with
  | none => .next s
  | some o =>
    match k o with
    | none => .next s
    | some s1 => .next s1

/-- The cache hint of an operation's accesses (07 R149): a GATH's is that of its memory prefix. -/
def opHint (o : AsyncOp) : Nat :=
  match o.kind with
  | .gath _ hint => hint
  | _ => 0

/-- One lane's read of a GATH (07 R162): a relaxed load of the issuing thread. -/
def gatherRead (s : State) (o : AsyncOp) (a : DWord) : Eng (Word × List RelMark) :=
  match translate s o.core o.slice o.ctx a .read with
  | .error .waits => .waits
  | .error (.fail st k ia) => .fails { err := trOpErr (.fail st k ia), addr := a, ia := trIa (.fail st k ia) }
  | .error (.poison tag) => .fails { err := 12, addr := a, tag := tag }
  | .ok (k, s1) =>
    let r := loadBytes s1 o.core o.slice k 4
    if loadWaits s1 o.core o.slice k 4 then .waits
    else if r.poisoned then .fails { err := 12, addr := a, tag := consumed s1 k }
    else .ok (BitVec.ofNat 32 (bytesNat r.bytes), r.marks) (fillLine s1 o.core o.slice (lineOf k) (opHint o))

/-- A gathered word put into its entry, whose pending bit and poison go (03 R59). -/
def putGathered (w : Warp) (key : Nat) (x : Word) : Warp :=
  { w with d := tset w.d key x, dPend := w.dPend.filter (· != key), dPoison := w.dPoison.filter (· != key) }

/-- The lanes of a GATH in ascending order (07 R162): the state, the warp, and the failures lane by lane; none while a port does not
answer. -/
def gatherLanes (o : AsyncOp) : List (Nat × Nat × DWord) → State → Warp → Option (State × Warp × List (Nat × OpErr))
  | [], s, w => some (s, w, [])
  | (l, x, a) :: t, s, w =>
    match gatherRead s o a with
    | .waits => none
    | .ok (v, ms) s1 => gatherLanes o t s1 (keepSeen (putGathered w (deepKey x l) v) (ms.map (fun m => (l, m))))
    | .fails e =>
      match gatherLanes o t s (putGathered w (deepKey x l) 0) with
      | none => none
      | some (s1, w1, es) => some (s1, w1, (l, e) :: es)

/-- The failure of a GATH (07 R162): the error and address of the lowest faulting lane, and the faulting lanes. -/
def gatherError (es : List (Nat × OpErr)) : Option OpErr :=
  match es with
  | [] => none
  | (_, e) :: _ => some { e with lanes := some (maskOfList (es.map (fun x => x.1))) }

/-- A GATH's reads done and its entries written. -/
def gatherDone (s : State) (id : Nat) (o : AsyncOp) (reqs : List (Nat × Nat × DWord)) : Option State :=
  match o.warps with
  | [] => none
  | (slot, _) :: _ =>
    match getWarp s o.core slot with
    | none => none
    | some w =>
      match gatherLanes o reqs s w with
      | none => none
      | some (s1, w1, es) => some (finishOp (putWarp s1 o.core slot w1) id o (gatherError es))

/-- GATHER_COMPLETE (07 R162, 03 R59): a stop does not hold it back (10 R231). -/
def execGatherComplete (op : Nat) (s : State) : Out :=
  opStep s op fun o =>
    match o.kind with
    | .gath reqs _ => if o.finished then none else gatherDone s op o reqs
    | _ => none

/-- Elements of a CPY (07 R159). -/
def copyCount (dst : Desc) (p2 : DWord) : Nat := copyX p2 * copyY p2 * descExt dst 2 * descExt dst 3 * descExt dst 4

/-- Bytes that an operation moves (07 R161): the larger of those it reads and those it writes. -/
def bytesMoved (o : AsyncOp) : Nat :=
  match o.kind with
  | .cpy src dst _ _ p2 => max (fmtBytes (descFmt src) (copyCount dst p2)) (fmtBytes (descFmt dst) (copyCount dst p2))
  | .accld td _ p =>
    let n := (bits p.toNat 53 47 + 1) * (bits p.toNat 46 40 + 1)
    max (fmtBytes (descFmt td) n) (4 * n)
  | .accst td _ p =>
    let n := (bits p.toNat 53 47 + 1) * (bits p.toNat 46 40 + 1)
    max (fmtBytes (descFmt td) n) (4 * n)
  | .mxmeta _ p => bits p.toNat 22 11 * 64
  | .actld _ => 1024
  | .wload _ td p _ =>
    let r := wregion p
    let groups := r.cols * (r.rows / max (descGs td) 1)
    fmtBytes (descFmt td) (r.cols * r.rows) + groups * (if descSfmt td = 0 then 0 else if descSfmt td = 1 then 1 else 2)
  | .mxissue _ _ _ _ _ => 0
  | .gath reqs _ => 4 * reqs.length
  | .coll td _ _ p2 _ _ => fmtBytes (descFmt td) p2.toNat

/-- An operation asks for a power permit (06 R140, 07 R161): every MXISSUE, and a copy or WLOAD that moves more than 65,536 bytes. -/
def needsPermit (o : AsyncOp) : Bool :=
  match o.kind with
  | .mxissue _ _ _ _ _ => true
  | .wload _ _ _ _ => decide (65536 < bytesMoved o)
  | _ => o.cls == 0 && decide (65536 < bytesMoved o)

/-- The permit has been granted. -/
def Permit.isGranted : Permit → Bool
  | .granted _ _ => true
  | .none => false
  | .queued _ _ _ => false

/-- An operation may start its next pass or burst as far as permits go (06 R140, 07 R161). -/
def permitHolds (o : AsyncOp) : Bool := !needsPermit o || o.permit.isGranted

/-- The tiles of an operation's team are on the core (06 R145). -/
def tilesHere (s : State) (o : AsyncOp) : Bool :=
  let c := getCore s o.core
  c.running == o.bank || !tilesSpill c

/-- Units of a copy-class operation: elements, and for MXMETA pieces of 64 bytes. -/
def copyTotal (o : AsyncOp) : Nat :=
  match o.kind with
  | .cpy _ dst _ _ p2 => copyCount dst p2
  | .accld _ _ p => (bits p.toNat 53 47 + 1) * (bits p.toNat 46 40 + 1)
  | .accst _ _ p => (bits p.toNat 53 47 + 1) * (bits p.toNat 46 40 + 1)
  | .mxmeta _ p => bits p.toNat 22 11
  | _ => 0

/-- Elements of a packed or plain format in 4 KiB (07 R161). -/
def burstElems (f : Fmt) : Nat :=
  match f.packed with
  | some k => 1024 * k
  | none => 4096 / (f.width / 8)

/-- Units of a 4 KiB destination burst (07 R161). -/
def burstUnits (o : AsyncOp) : Nat :=
  match o.kind with
  | .cpy _ dst _ _ _ => burstElems (descFmt dst)
  | .accld _ _ _ => 1024
  | .accst td _ _ => burstElems (descFmt td)
  | _ => 64

/-- The units of a burst. -/
def burstRange (o : AsyncOp) : List Nat :=
  let lo := o.progress * burstUnits o
  (List.range (min (copyTotal o) (lo + burstUnits o) - lo)).map (fun i => lo + i)

/-- The coordinates of a CPY's element i from an origin (07 R159). -/
def copyCoords (dst : Desc) (p p2 : DWord) (i : Nat) : List Nat :=
  let x := copyX p2
  let xy := x * copyY p2
  [p.toNat % 2 ^ 32 + i % x, p.toNat / 2 ^ 32 + i / x % copyY p2, i / xy % descExt dst 2, i / (xy * descExt dst 2) % descExt dst 3,
    i / (xy * descExt dst 2 * descExt dst 3) % descExt dst 4]

/-- An element's bits in the destination's format (07 R160), with the events of the conversion. -/
def convertElem (nmode : Word) (f g : Fmt) (b : Nat) : Nat × Events :=
  if f = g then (b, []) else deliver g (nmodeRm nmode g) (nmodeSat nmode g) (valueOf f b)

/-- One element of a CPY (07 R159, R160). -/
def cpyElem (o : AsyncOp) (src dst : Desc) (p0 p1 p2 : DWord) (i : Nat) (s : State) : Eng Events :=
  (readElem s o src (copyCoords dst p0 p2 i)).andThen fun b s1 =>
    let r := convertElem o.nmode (descFmt src) (descFmt dst) b
    (writeElem s1 o dst (copyCoords dst p1 p2 i) r.1).andThen fun _ s2 => .ok r.2 s2

/-- Row and column of element i of a tile region (13 R299). -/
def tileCoords (p : DWord) (i : Nat) : Nat × Nat := (i / (bits p.toNat 53 47 + 1), i % (bits p.toNat 53 47 + 1))

/-- The tensor coordinates of a tile element (13 R299). -/
def tileElem (p : DWord) (r c : Nat) : List Nat := [bits p.toNat 19 0 + c, bits p.toNat 39 20 + r]

/-- An accumulator element of a team written, without poison (03 R54). -/
def putAcc (s : State) (core team key : Nat) (x : Nat) : State :=
  let t := getTeam s core team
  putTeam s core team { t with acc := tset t.acc key (BitVec.ofNat 32 x), accPoison := t.accPoison.filter (· != key) }

/-- One element of an ACCLD (13 R300). -/
def accldElem (o : AsyncOp) (td : Desc) (tile : Nat) (p : DWord) (i : Nat) (s : State) : Eng Events :=
  let (r, c) := tileCoords p i
  (readElem s o td (tileElem p r c)).andThen fun b s1 =>
    .ok [] (putAcc s1 o.core o.team (accKey tile r c) (deliver .f32 .rne false (valueOf (descFmt td) b)).1)

/-- One element of an ACCST (13 R300, R301): a poisoned tile element fails it. -/
def accstElem (o : AsyncOp) (td : Desc) (tile : Nat) (p : DWord) (i : Nat) (s : State) : Eng Events :=
  let (r, c) := tileCoords p i
  let t := getTeam s o.core o.team
  if t.accPoison.contains (accKey tile r c) then .fails { err := 12, addr := 0 }
  else
    let y := convertElem o.nmode .f32 (descFmt td) (tget 0 t.acc (accKey tile r c)).toNat
    (writeElem s o td (tileElem p r c) y.1).andThen fun _ s1 => .ok y.2 s1

/-- 64 bytes of an MXMETA (14 R336). -/
def mxmetaPiece (o : AsyncOp) (td : Desc) (p : DWord) (i : Nat) (s : State) : Eng Events :=
  (engRead s o ((descMeta td).toInt + ((bits p.toNat 53 23 + i) * 64 : Nat)) 64).andThen fun v s1 =>
    .ok [] (modBank s1 o.core o.bank (fun b => { b with sparse := mwriteN b.sparse ((bits p.toNat 10 0 + i) * 64) (natBytes 64 v) }))

/-- One unit of a copy-class operation. -/
def copyUnit (o : AsyncOp) (i : Nat) (s : State) : Eng Events :=
  match o.kind with
  | .cpy src dst p0 p1 p2 => cpyElem o src dst p0 p1 p2 i s
  | .accld td tile p => accldElem o td tile p i s
  | .accst td tile p => accstElem o td tile p i s
  | .mxmeta td p => mxmetaPiece o td p i s
  | _ => .ok [] s

/-- Units performed one after another up to a failure: the state, the events and the failure; none while a port does not
answer. -/
def runUnits (f : Nat → State → Eng Events) : List Nat → State → Events → Option (State × Events × Option OpErr)
  | [], s, ev => some (s, ev, none)
  | i :: t, s, ev =>
    match f i s with
    | .waits => none
    | .fails e => some (s, ev, some e)
    | .ok e s1 => runUnits f t s1 (ev ++ e)

/-- The operation writes bursts. -/
def isBurst (o : AsyncOp) : Bool :=
  match o.kind with
  | .cpy _ _ _ _ _ => true
  | .accld _ _ _ => true
  | .accst _ _ _ => true
  | .mxmeta _ _ => true
  | _ => false

/-- The operation reads or writes accumulator tiles. -/
def usesTiles (o : AsyncOp) : Bool :=
  match o.kind with
  | .accld _ _ _ => true
  | .accst _ _ _ => true
  | .mxissue _ _ _ _ _ => true
  | _ => false

/-- An operation after a burst, a pass or a step: the next one, or its end. -/
def advanceOp (s : State) (id : Nat) (o : AsyncOp) (total : Nat) : State :=
  let o1 := { o with progress := o.progress + 1 }
  if total ≤ o1.progress then finishOp s id o1 none else putOp s id o1

/-- While a stop line of its context is up, the last burst or step of an engine before the line reaches it is the one that the line cuts (10
R231, R235; log 119). -/
def noteCut (s : State) (id : Nat) (o : AsyncOp) : State :=
  let x := getCtx s o.slice o.ctx
  match x.stop with
  | none => s
  | some st =>
    putCtx s o.slice o.ctx { x with stop := some { st with cut := (opUnit o, id) :: st.cut.filter (fun e => e.1 != opUnit o) } }

/-- COPY_BURST (07 R159-R161; 13 R300, R301; 14 R336): one 4 KiB destination burst. -/
def execCopyBurst (op : Nat) (s : State) : Out :=
  opStep s op fun o =>
    if !isBurst o || !opRuns s o || !permitHolds o || (usesTiles o && !tilesHere s o) then none
    else
      match runUnits (copyUnit o) (burstRange o) s [] with
      | none => none
      | some (s1, ev, some e) =>
        some (finishOp (noteCut s1 op o) op { o with events := o.events ++ ev } (some e))
      | some (s1, ev, none) =>
        some (advanceOp (noteCut s1 op o) op { o with events := o.events ++ ev } ((copyTotal o + burstUnits o - 1) / burstUnits o))

/-- Operations of one class and one warp are in flight together. -/
def sharesWarp (a b : AsyncOp) : Bool := a.core == b.core && a.warps.any (fun x => b.warps.contains x)

/-- An operation's turn to be reported (07 R164): it has finished, and no older one of its class and warp is left. -/
def reportDue (s : State) (id : Nat) (o : AsyncOp) : Bool :=
  o.finished && !o.dropped && s.ops.all (fun e => decide (id ≤ e.1) || e.2.cls != o.cls || e.2.dropped || !sharesWarp o e.2)

/-- The warps of an operation that still hold their slots. -/
def opWarps (s : State) (o : AsyncOp) : List (Nat × Warp) :=
  o.warps.filterMap (fun x => match getWarp s o.core x.1 with
    | none => none
    | some w => if slotGen s o.core x.1 = x.2 then some (x.1, w) else none)

/-- A completion recorded in a warp (07 R164, R167): the counter, and the oldest failure of the class. -/
def noteReport (o : AsyncOp) (w : Warp) : Warp :=
  let w1 := { w with counts := setAt w.counts o.cls (w.counts.getD o.cls 0 - 1) }
  match o.err with
  | none => w1
  | some e =>
    if w.asyncErrs.any (fun x => x.cls == o.cls) then w1
    else { w1 with asyncErrs := w1.asyncErrs ++ [failureOf o e] }

/-- Every warp of an operation has exited. -/
def opExited (s : State) (o : AsyncOp) : Bool := (opWarps s o).all (fun x => liveLanes x.2 == 0)

/-- The failure of an operation whose warps have exited raises the stop line (06 R141); the host is told of a stage-2 fault
(07 R172). The operation stays for the record of its engine (10 R235), unless that one has stopped already. -/
def failExited (s : State) (id : Nat) (o : AsyncOp) (e : OpErr) : State :=
  let s1 := putOp s id { o with dropped := true }
  let s2 := raiseStop s1 o.slice o.ctx (causeWord 0x27 e.err o.cls true false)
  let kept := match (getCtx s2 o.slice o.ctx).stop with
    | none => false
    | some st => st.units.contains (opUnit o)
  let s3 := if kept then s2 else { s2 with ops := tdel s2.ops id }
  match e.ia with
  | none => s3
  | some a => reportStage2 s3 o.slice o.ctx a

/-- A core's warps put back as they were. -/
def keepWarps (s t : State) (core : Nat) : State := putCore t core { getCore t core with warps := (getCore s core).warps }

/-- The events of an operation counted for its warp on the core that holds the team (05 R111); with every warp exited, no trap is taken
(05 R114). -/
def countOp (s : State) (o : AsyncOp) : State :=
  match (opWarps s o).find? (fun x => liveLanes x.2 != 0) with
  | some x => countEvents s o.core x.1 o.slice o.ctx o.events
  | none => keepWarps s (countEvents s o.core 0 o.slice o.ctx o.events) o.core

/-- ASYNC_COMPLETION_REPORT (07 R164, R167; 05 R111; 06 R141). -/
def execAsyncCompletionReport (op : Nat) (s : State) : Out :=
  opStep s op fun o =>
    if !reportDue s op o then none
    else
      let s1 := (opWarps s o).foldl (fun s x => putWarp s o.core x.1 (noteReport o x.2)) s
      let s2 := countOp s1 o
      match o.err with
      | some e => if opExited s o then some (failExited s2 op o e) else some { s2 with ops := tdel s2.ops op }
      | none => some { s2 with ops := tdel s2.ops op }

/-- An operation's accesses one after another. -/
def engMap {α β : Type} (f : α → State → Eng β) : List α → State → Eng (List β)
  | [], s => .ok [] s
  | a :: t, s => (f a s).andThen fun b s1 => (engMap f t s1).andThen fun bs s2 => .ok (b :: bs) s2

/-- An ACTLD's table written into the inactive bank, which becomes current (09 R216). -/
def flipTable (b : Bank) (es : List Nat) : Bank :=
  let t : Tbl Word := es.zipIdx.map (fun e => (e.2, BitVec.ofNat 32 e.1))
  if b.actCur then { b with act0 := t, actCur := false } else { b with act1 := t, actCur := true }

/-- The ACTLD is the oldest unfinished one of its bank context (09 R216). -/
def actldTurn (s : State) (id : Nat) (o : AsyncOp) : Bool :=
  s.ops.all (fun e => decide (id ≤ e.1) || e.2.finished || e.2.core != o.core || e.2.bank != o.bank ||
    (match e.2.kind with
      | .actld _ => false
      | _ => true))

/-- ACTLD_FLIP (09 R216, R217; 13 R306): a VACT binds its bank at retirement, so none is in flight. -/
def execActldFlip (op : Nat) (s : State) : Out :=
  opStep s op fun o =>
    match o.kind with
    | .actld td =>
      if !opRuns s o || !actldTurn s op o then none
      else
        match engMap (fun i s => readElem s o td [i]) (List.range 256) s with
        | .waits => none
        | .fails e => some (finishOp s op o (some e))
        | .ok es s1 => some (finishOp (modBank s1 o.core o.bank (fun b => flipTable b es)) op { o with progress := 1 } none)
    | _ => none

end Sys2Proof.Machine
end

