-- ==== Sys2Proof/Machine/MatrixEngine.lean ====
section
/-!
DEFINITION. The matrix engines (06 R117-R147, R437): the weight-load path, the booth's choice of the next pass, what a pass reads at its
start and what it adds to the accumulators at its end.
-/
namespace Sys2Proof.Machine

/-- A cluster's matrix engine. -/
def getEngine (s : State) (me : Nat) : Engine := tget {} s.engines me

/-- A cluster's matrix engine replaced. -/
def putEngine (s : State) (me : Nat) (e : Engine) : State := { s with engines := tset s.engines me e }

/-- The slot that a matrix operation names (06 R118, R132). -/
def meSlotOf (o : AsyncOp) : Nat :=
  match o.kind with
  | .wload ws _ _ _ => ws
  | .mxissue w _ _ _ _ => blockWord w 2
  | _ => 16

/-- The operation is a WLOAD. -/
def isWload (o : AsyncOp) : Bool :=
  match o.kind with
  | .wload _ _ _ _ => true
  | _ => false

/-- Macros of a set (06 R120). -/
def macrosOf (d : Desc) (r : WRegion) : Nat := r.rows / 128 * (r.cols / 128) * cellsPer (descFmt d)

/-- Bytes of a group's scale or exponent in the scale store (06 R119). -/
def scaleWidth (d : Desc) : Nat := if (descFmt d).formsB8 then 2 else descSfmt d

/-- Bytes that a set takes in the scale store (06 R119). -/
def scaleNeed (d : Desc) (r : WRegion) : Nat := r.cols * (r.rows / max (descGs d) 1) * scaleWidth d

/-- The macros of a bank that sets in slots other than one leave free, ascending (06 R117, R120). -/
def freeMacros (e : Engine) (ws bank : Nat) : List Nat :=
  ((List.range 128).map (fun i => bank * 128 + i)).filter (fun m => !e.slots.any (fun x => x.1 != ws && x.2.macros.contains m))

/-- Bytes of the scale store that sets in slots other than one hold. -/
def scalesUsed (e : Engine) (ws : Nat) : Nat := (e.slots.map (fun x => if x.1 != ws then x.2.scaleBytes else 0)).sum

/-- Macros of a bank whose sets entries in the booth name (06 R120). DESIGN CHOICE (log 118): an MXISSUE names the macros of its slot's set; a
WLOAD, which is to release them, does not. -/
def macrosNamed (s : State) (me ws bank : Nat) : Nat :=
  ((getEngine s me).slots.map (fun x => if x.1 != ws && x.2.bank == bank &&
    (boothEntries s me).any (fun o => !isWload o.2 && meSlotOf o.2 == x.1) then x.2.macros.length else 0)).sum

/-- The bank that takes a set (06 R120). -/
def chooseBank (s : State) (me ws n : Nat) : Option Nat :=
  let fits := fun b => decide (n ≤ (freeMacros (getEngine s me) ws b).length)
  if fits 0 && fits 1 then some (if macrosNamed s me ws 1 < macrosNamed s me ws 0 then 1 else 0)
  else if fits 0 then some 0
  else if fits 1 then some 1
  else none

/-- The macro map of a set of n blocks in a bank (06 R117, R120): the lowest free ones (log 47). -/
def mapMacros (s : State) (me ws bank n : Nat) : List Nat := (freeMacros (getEngine s me) ws bank).take n

/-- The exponent of a finite value that is not zero; a subnormal takes its format's smallest normal exponent (05 R98, 06 R123). -/
def expOf (f : Fmt) (x : Num) : Option Int :=
  match x with
  | .fin _ m e => if m = 0 then none else some (max (e + (Nat.log2 m : Nat)) (f.subExp + (f.prec : Int) - 1))
  | .nan => none
  | .inf _ => none

/-- The greatest exponent of a group, if a value is finite and not zero. -/
def maxExp (f : Fmt) (xs : List Num) : Option Int :=
  (xs.filterMap (expOf f)).foldl (fun r e => match r with
    | none => some e
    | some m => some (max m e)) none

/-- A value rounded to an integer multiple of 2^y under RNE, and whether bits were lost; 0 for a value that is not finite. -/
def quantize (y : Int) (x : Num) : Int × Bool :=
  match x with
  | .fin neg m e =>
    let r := roundAt .rne neg m e y
    (if neg then -(r.1 : Int) else r.1, r.2)
  | .nan => (0, false)
  | .inf _ => (0, false)

/-- A B8 group (05 R98): its exponent and significands. -/
def formB8 (f : Fmt) (xs : List Num) : Int × List Int :=
  match maxExp f xs with
  | none => (0, xs.map (fun _ => 0))
  | some m => (m - 6, xs.map (fun x => min 127 (quantize (m - 6) x).1))

/-- One weight's bits (06 R118, R122): an I3 word with bits 31 and 30 set, and a NaN or infinite weight, are format errors. -/
def readWeight (o : AsyncOp) (d : Desc) (row col : Nat) (s : State) : Eng Nat :=
  let p := elemAt d (elemOffset d [row, col])
  (engRead s o p.addr p.bytes).andThen fun w s1 =>
    match p.slot with
    | none =>
      if (valueOf (descFmt d) w).isNan || (valueOf (descFmt d) w).isInf then .fails { err := 3, addr := BitVec.ofInt 64 p.addr }
      else .ok w s1
    | some i =>
      if descFmt d == .i3 && w / 2 ^ 30 != 0 then .fails { err := 3, addr := BitVec.ofInt 64 p.addr }
      else .ok (packedGet w (descFmt d).width i) s1

/-- One group scale's bits (06 R118). -/
def readScale (o : AsyncOp) (d : Desc) (col g : Nat) (s : State) : Eng Nat :=
  let n := (descExt d 0 + descGs d - 1) / max (descGs d) 1
  if descSfmt d = 0 then .ok 0 s
  else engRead s o ((descScale d).toInt + ((col * n + g) * descSfmt d : Nat)) (descSfmt d)

/-- One group of one column loaded (06 R118, R119): its integer weights or B8 significands, and its scale bits or B8 exponent. -/
def loadGroup (o : AsyncOp) (d : Desc) (r : WRegion) (at_ : Nat × Nat) (s : State) : Eng (List (Nat × Int) × Nat × Int) :=
  let (col, g) := at_
  let f := descFmt d
  let rows := (List.range (descGs d)).map (fun i => g * descGs d + i)
  let key := fun (ws : List Int) => (rows.zip ws).map (fun e => (col * 65536 + e.1, e.2))
  (engMap (fun row s => readWeight o d (r.krow + row) (r.ncol + col) s) rows s).andThen fun ws s1 =>
    if f.formsB8 then
      let b := formB8 f (ws.map (valueOf f))
      .ok (key b.2, col * 4096 + g, b.1) s1
    else
      (readScale o d (r.ncol + col) (r.krow / max (descGs d) 1 + g) s1).andThen fun x s2 =>
        .ok (key (ws.map (signedNat f.width)), col * 4096 + g, (x : Int)) s2

/-- The groups of a region, column by column. -/
def regionGroups (d : Desc) (r : WRegion) : List (Nat × Nat) :=
  (List.range r.cols).flatMap (fun c => (List.range (r.rows / max (descGs d) 1)).map (fun g => (c, g)))

/-- A number modulo 7 (06 R119, R127). -/
def mod7 (q : Int) : Nat := (q % 7).toNat

/-- The residues of a weight's cells (05 R99; 06 R117, R119): of its one cell, or of the high and the low cell of a B8 weight. -/
def cellResidues (b8 : Bool) (w : Nat × Int) : Tbl Nat :=
  if b8 then [(2 * w.1, mod7 (w.2 / 16)), (2 * w.1 + 1, mod7 (w.2 % 16))] else [(2 * w.1, mod7 w.2)]

/-- The set that a WLOAD's groups make, with the residues that the path writes beside its cells (06 R119). -/
def setOf (o : AsyncOp) (d : Desc) (r : WRegion) (bank gen : Nat) (macros : List Nat) (gs : List (List (Nat × Int) × Nat × Int)) : WeightSet :=
  let ws := gs.flatMap (fun g => g.1)
  { slice := o.slice, ctx := o.ctx, gen := gen, bank := bank, macros := macros, scaleBytes := scaleNeed d r,
    fmt := descFmt d, sfmt := descSfmt d, group := descGs d, cols := r.cols, rows := r.rows,
    weights := ws, residues := ws.flatMap (cellResidues (descFmt d).formsB8), scales := gs.map (fun g => g.2) }

/-- A slot's set replaced, or released. -/
def putSet (s : State) (me ws : Nat) (x : Option WeightSet) : State :=
  let e := getEngine s me
  putEngine s me { e with slots := match x with
    | none => tdel e.slots ws
    | some y => tset e.slots ws y }

/-- The load of a set, with the old one released (06 R120-R122): a failed one leaves the slot empty. -/
def loadSet (s : State) (id me ws : Nat) (o : AsyncOp) (d : Desc) (p : DWord) (gen : Nat) : Option State :=
  let r := wregion p
  let s0 := putSet s me ws none
  match chooseBank s me ws (macrosOf d r) with
  | none => some (finishOp s0 id o (some { err := 7, addr := 0 }))
  | some bank =>
    if 131072 < scalesUsed (getEngine s me) ws + scaleNeed d r then some (finishOp s0 id o (some { err := 7, addr := 0 }))
    else
      match engMap (loadGroup o d r) (regionGroups d r) s0 with
      | .waits => none
      | .fails e => some (finishOp s0 id o (some e))
      | .ok gs s1 => some (finishOp (putSet s1 me ws (some (setOf o d r bank gen (mapMacros s me ws bank (macrosOf d r)) gs))) id o none)

/-- Entries of the booth accepted before an operation that name its slot (06 R121). -/
def earlierOn (s : State) (me id ws : Nat) : List (Nat × AsyncOp) :=
  (boothEntries s me).filter (fun e => decide (e.1 < id) && meSlotOf e.2 == ws)

/-- An operation has a place in the booth. -/
def inBooth (s : State) (me id : Nat) : Bool := (boothEntries s me).any (fun e => e.1 == id)

/-- WEIGHT_LOAD (06 R117-R122, R138, R437): between passes, after the earlier entries on its slot. -/
def execWeightLoad (op : Nat) (s : State) : Out :=
  opStep s op fun o =>
    match o.kind with
    | .wload ws d p gen =>
      let me := clusterOf o.core
      if !opRuns s o || !inBooth s me op || !permitHolds o || (getEngine s me).passing.isSome || !(earlierOn s me op ws).isEmpty then none
      else loadSet s op me ws o d p gen
    | _ => none

/-- Where a pass lies in its operation (06 R135, R136): columns, k and output rows. -/
structure PassAt where
  chunk : Nat
  block : Nat
  col : Nat
  cols : Nat
  k : Nat
  ks : Nat
  row : Nat
  rows : Nat
  deriving DecidableEq, Repr

/-- k of a k-block (06 R135). -/
def kBlock (w : List Word) : Nat := if bitOf (blockWord w 0) 6 then 4 else if bitOf (blockWord w 0) 7 then 256 else 128

/-- Columns of a chunk (06 R135). -/
def chunkCols (b8 : Bool) : Nat := if b8 then 4096 else 8192

/-- Row blocks of an operation (06 R135). -/
def rowBlocks (w : List Word) : Nat := (blockWord w 4 + 31) / 32

/-- Passes of an operation (06 R135). -/
def passTotal (w : List Word) (b8 : Bool) : Nat :=
  (blockWord w 6 + chunkCols b8 - 1) / chunkCols b8 * (blockWord w 5 / kBlock w) * rowBlocks w

/-- Pass x of an operation (06 R136). -/
def passAt (w : List Word) (b8 : Bool) (x : Nat) : PassAt :=
  let nk := blockWord w 5 / kBlock w
  let nr := rowBlocks w
  let nc := x / (nk * nr)
  let kb := x / nr % nk
  let rb := x % nr
  { chunk := nc, block := kb, col := nc * chunkCols b8, cols := min (chunkCols b8) (blockWord w 6 - nc * chunkCols b8),
    k := kb * kBlock w, ks := kBlock w, row := rb * 32, rows := min 32 (blockWord w 4 - rb * 32) }

/-- The C elements of two operations of a deterministic team may overlap (06 R139): each covers a range of accumulator rows by
tiles, or for kind 2 every tile from its base up. -/
structure CSpan where
  tile : Nat
  across : Nat
  r0 : Nat
  m : Nat
  scatter : Bool

/-- The C elements of an operation. -/
def cSpan (w : List Word) : CSpan :=
  { tile := bits (blockWord w 3) 6 0, across := tilesAcross (blockWord w 6), r0 := bits (blockWord w 3) 13 7, m := blockWord w 4,
    scatter := bits (blockWord w 0) 3 0 == 2 }

/-- The tile rows that a span writes in tile column c of its block row b: the tile, its first and its last row. -/
def spanPieces (x : CSpan) (budget : Nat) : List (Nat × Nat × Nat) :=
  if x.scatter then (List.range (budget - x.tile)).map (fun i => (x.tile + i, 0, 127))
  else
    let last := (x.r0 + x.m - 1) / 128
    (List.range (last + 1)).flatMap (fun b =>
      let lo := if b = 0 then x.r0 else 0
      let hi := min 127 (x.r0 + x.m - 1 - b * 128)
      (List.range x.across).map (fun j => (x.tile + j + b * x.across, lo, hi)))

/-- Two operations of one team have C elements in common. -/
def spansMeet (a b : CSpan) (budget : Nat) : Bool :=
  (spanPieces a budget).any (fun p => (spanPieces b budget).any (fun q =>
    p.1 == q.1 && decide (p.2.1 ≤ q.2.2 ∧ q.2.1 ≤ p.2.2)))

/-- In deterministic mode, an earlier entry whose C elements overlap holds an entry back (06 R139). -/
def detHolds (s : State) (me id : Nat) (o : AsyncOp) : Bool :=
  let t := getTeam s o.core o.team
  bitOf t.header 27 && (boothEntries s me).any (fun e =>
    decide (e.1 < id) && e.2.core == o.core && e.2.slice == o.slice && e.2.ctx == o.ctx && e.2.team == o.team &&
      (match e.2.kind, o.kind with
        | .mxissue v _ _ _ _, .mxissue w _ _ _ _ => spansMeet (cSpan v) (cSpan w) t.accB
        | _, _ => false))

/-- An entry is eligible for a pass (06 R138, R139). -/
def eligible (s : State) (me : Nat) (e : Nat × AsyncOp) : Bool :=
  !isWload e.2 && opRuns s e.2 && e.2.permit.isGranted && tilesHere s e.2 &&
    !e.2.awaits && !(earlierOn s me e.1 (meSlotOf e.2)).any (fun x => isWload x.2) && !detHolds s me e.1 e.2

/-- The entry that gets the next pass (06 R138): the highest class, then the oldest. -/
def nextEntry (s : State) (me : Nat) : Option (Nat × AsyncOp) :=
  ((boothEntries s me).filter (eligible s me)).foldl (fun r e => match r with
    | none => some e
    | some b => if b.2.prio < e.2.prio then some e else r) none

/-- An eligible entry passed over once (06 R138): the sixteenth time it rises a class. -/
def passOver (o : AsyncOp) : AsyncOp :=
  if o.passedOver = 15 then { o with passedOver := 0, prio := min 3 (o.prio + 1) } else { o with passedOver := o.passedOver + 1 }

/-- The eligible entries other than the chosen one are passed over. -/
def passOthers (s : State) (me id : Nat) : State :=
  ((boothEntries s me).filter (fun e => e.1 != id && eligible s me e)).foldl (fun s e => putOp s e.1 (passOver e.2)) s

/-- The weight set of an operation as it is at a pass's start (06 R121, R129): error 6, or error 3 where the sparse bit and the set
disagree. -/
def passSet (s : State) (me : Nat) (o : AsyncOp) (w : List Word) (gen : Nat) : Except Nat WeightSet :=
  let sparse := bitOf (blockWord w 0) 7
  match tfind (getEngine s me).slots (blockWord w 2) with
  | none => .error 6
  | some x =>
    if x.gen != gen || x.slice != o.slice || x.ctx != o.ctx then .error 6
    else if x.rows < (if sparse then blockWord w 5 / 2 else blockWord w 5) ∨ x.cols < blockWord w 14 + blockWord w 6 then .error 6
    else if sparse != (x.group == 16) then .error 3
    else .ok x

/-- The metadata nibble of a quad and a column (06 R130). -/
def nibble (m : Memory) (w : List Word) (p n : Nat) : Nat :=
  let i := p * blockWord w 6 + n
  (mread m (blockWord w 13 * 64 + i / 2)).toNat / (if i % 2 = 0 then 1 else 16) % 16

/-- The metadata of a pass is well formed (06 R130). -/
def nibblesOk (m : Memory) (w : List Word) (a : PassAt) : Bool :=
  !bitOf (blockWord w 0) 7 ||
    (List.range (a.ks / 4)).all (fun q => (List.range a.cols).all (fun j =>
      decide (nibble m w (a.k / 4 + q) (a.col + j) % 4 < nibble m w (a.k / 4 + q) (a.col + j) / 4)))

/-- An index error (06 R131). -/
def indexError {α : Type} : Eng α := .fails { err := 4, addr := 0 }

/-- An element of an I32 list (06 R131). -/
def readList (s : State) (o : AsyncOp) (d : Desc) (i : Nat) : Eng Int :=
  if descExt d 0 ≤ i then indexError else (readElem s o d [i]).andThen fun b s1 => .ok (signedNat 32 b) s1

/-- The A row and the accumulator row of an output row (06 R131); none for a gather value of −1. -/
def mapRow (o : AsyncOp) (w : List Word) (a : Desc) (gather scatter : Option Desc) (budget lastCol i : Nat) (s : State) :
    Eng (Option (Nat × Nat)) :=
  let r0 := bits (blockWord w 3) 13 7
  let arow := fun (v : Nat) => blockWord w 7 + v
  match gather with
  | none => .ok (some (arow i, r0 + i)) s
  | some gd =>
    (readList s o gd (blockWord w 11 + i)).andThen fun v s1 =>
      if v < -1 then indexError
      else if v = -1 then .ok none s1
      else if descExt a 1 ≤ arow v.toNat then indexError
      else
        match scatter with
        | none => .ok (some (arow v.toNat, r0 + i)) s1
        | some sd =>
          (readList s1 o sd (blockWord w 12 + i)).andThen fun x s2 =>
            let row := r0 + x.toNat
            if x < 0 ∨ budget ≤ bits (blockWord w 3) 6 0 + lastCol / 128 + row / 128 * tilesAcross (blockWord w 6) then indexError
            else .ok (some (arow v.toNat, row)) s2

/-- One row's activations for a pass (06 R123). -/
def readRow (o : AsyncOp) (w : List Word) (a : Desc) (p : PassAt) (r : Nat × Nat) (s : State) : Eng (Nat × List Nat) :=
  (engMap (fun k s => readElem s o a [blockWord w 8 + p.k + k, r.1]) (List.range p.ks) s).andThen fun xs s1 => .ok (r.2, xs) s1

/-- What a pass reads at its start (06 R121, R123, R129-R131, R141): its set is checked, then the metadata, then the lists, then A. -/
def startPass (s : State) (me id : Nat) (o : AsyncOp) (w : List Word) (a : Desc) (gather scatter : Option Desc) (gen : Nat) : Eng Pass :=
  match passSet s me o w gen with
  | .error e => .fails { err := e, addr := 0 }
  | .ok x =>
    let p := passAt w x.fmt.formsB8 o.progress
    let half := ((getCore s o.core).bank o.bank).sparse
    if !nibblesOk half w p then .fails { err := 5, addr := 0 }
    else
      let t := getTeam s o.core o.team
      (engMap (fun i s => mapRow o w a gather scatter t.accB (p.col + p.cols - 1) (p.row + i) s) (List.range p.rows) s).andThen
        fun rs s1 => (engMap (readRow o w a p) (rs.filterMap (fun r => r)) s1).andThen fun rows s2 =>
          .ok { op := id, rows := rows, sparse := if bitOf (blockWord w 0) 7 then half else [] } s2

/-- ME_PASS_START (06 R138, R141). -/
def execMePassStart (me : Nat) (s : State) : Out :=
  if (getEngine s me).passing.isSome then .next s
  else
    match nextEntry s me with
    | none => .next s
    | some (id, o) =>
      match o.kind with
      | .mxissue w a gather scatter gen =>
        match startPass s me id o w a gather scatter gen with
        | .waits => .next s
        | .fails e => .next (finishOp s id o (some e))
        | .ok p s1 => .next (putEngine (passOthers s1 me id) me { getEngine s1 me with passing := some p })
      | _ => .next s

/-- A group of 32 activations aligned (06 R123): Y, the significands, and whether bits were lost. -/
def alignGroup (f : Fmt) (xs : List Num) : Int × List Int × Bool :=
  match maxExp f xs with
  | none => (0, xs.map (fun _ => 0), false)
  | some m =>
    let y := m - (if f = .bf16 then 14 else 6)
    let qs := xs.map (quantize y)
    (y, qs.map (fun q => q.1), qs.any (fun q => q.2))

/-- The scale of a group (05 R97): 1 where there is none; a B8 group's 2^X. -/
def scaleNum (x : WeightSet) (col g : Nat) : Num :=
  let b := tget 0 x.scales (col * 4096 + g)
  if x.fmt.formsB8 then .fin false 1 b
  else if x.sfmt = 1 then if b = 255 then .nan else .fin false 1 (b - 127)
  else if x.sfmt = 2 then valueOf .bf16 b.toNat
  else .fin false 1 0

/-- A weight's value (05 R97, R99): an integer times its group's scale; a zero is +0 (log 48). -/
def scaled (q : Int) (x : Num) : Num :=
  match x with
  | .nan => .nan
  | .inf n => if q = 0 then .nan else .inf (n != decide (q < 0))
  | .fin n m e => if q = 0 ∨ m = 0 then .fin false 0 0 else .fin (n != decide (q < 0)) (q.natAbs * m) e

/-- A stored weight. -/
def weightAt (x : WeightSet) (row col : Nat) : Int := tget 0 x.weights (col * 65536 + row)

/-- An exact sum; none is an invalid one. -/
def addOpt (a b : Option Num) : Option Num :=
  match a, b with
  | some x, some y => addExact .rne x y
  | _, _ => none

/-- The stored rows and the places within its 32 k that a group of a column takes part with (06 R129, R130): all 32, or the 16 kept
ones. -/
def groupRows (w : List Word) (m : Memory) (g n : Nat) : List (Nat × Nat) :=
  if bitOf (blockWord w 0) 7 then
    (List.range 8).flatMap (fun q =>
      let b := nibble m w (8 * g + q) n
      [(2 * (8 * g + q), 4 * q + b % 4), (2 * (8 * g + q) + 1, 4 * q + b / 4)])
  else (List.range 32).map (fun i => (32 * g + i, i))

/-- A stored weight's residue, its cells' combined (06 R127). -/
def residueAt (x : WeightSet) (row col : Nat) : Nat :=
  let k := 2 * (col * 65536 + row)
  if x.fmt.formsB8 then 16 * tget 0 x.residues k + tget 0 x.residues (k + 1) else tget 0 x.residues k

/-- The checker's value of some products differs from their sum's (06 R127): weights by row, with the significands they meet. -/
def residueFails (x : WeightSet) (col : Nat) (ps : List (Nat × Int)) : Bool :=
  (ps.map (fun p => residueAt x p.1 col * mod7 p.2)).sum % 7 != mod7 ((ps.map (fun p => weightAt x p.1 col * p.2)).sum)

/-- The term that a group adds to an element (06 R125, R126). -/
def groupTerm (x : WeightSet) (rows : List (Nat × Nat)) (col g : Nat) (xs : List Num) (y : Int) (qs : List Int) : Num :=
  let sc := scaleNum x col g
  let special := sc.isNan || sc.isInf || rows.any (fun r => (xs.getD r.2 .nan).isNan || (xs.getD r.2 .nan).isInf)
  if special then
    ((rows.map (fun r => mulExact (scaled (weightAt x r.1 col) sc) (xs.getD r.2 .nan))).foldl addOpt (some (.fin false 0 0))).getD .nan
  else
    let sum := (rows.map (fun r => weightAt x r.1 col * qs.getD r.2 0)).sum
    match scaled sum sc with
    | .fin n m e => if m = 0 then .fin false 0 0 else .fin n m (e + y)
    | .nan => .nan
    | .inf n => .inf n

/-- C plus a term, rounded (06 R126). -/
def addTerm (c : Nat) (t : Num) : Nat := (deliverOp .f32 .rne false ((valueOf .f32 c).isNan || t.isNan) (addExact .rne (valueOf .f32 c) t)).1

/-- The integer significand of a finite activation (06 R128). -/
def significand (x : Num) : Int :=
  match x with
  | .fin n m _ => if n then -(m : Int) else m
  | .nan => 0
  | .inf _ => 0

/-- A row's activations as values, in groups of 32 with their alignment. -/
def alignRow (f : Fmt) (p : PassAt) (xs : List Nat) : List (List Num × Int × List Int × Bool) :=
  (List.range (p.ks / 32)).map (fun g =>
    let vs := ((xs.drop (32 * g)).take 32).map (valueOf f)
    (vs, alignGroup f vs))

/-- An element after the updates of one output row in block mode (06 R126, R136). -/
def blockUpdate (x : WeightSet) (w : List Word) (m : Memory) (p : PassAt) (gs : List (List Num × Int × List Int × Bool)) (j c : Nat) : Nat :=
  gs.zipIdx.foldl (fun c e =>
    let g := p.k / 32 + e.2
    addTerm c (groupTerm x (groupRows w m g j) (blockWord w 14 + j) g e.1.1 e.1.2.1 e.1.2.2.1)) c

/-- An element after the updates of one output row in scalar-exact mode (06 R128). -/
def scalarUpdate (x : WeightSet) (w : List Word) (f : Fmt) (p : PassAt) (xs : List Nat) (j c : Nat) : Nat :=
  xs.zipIdx.foldl (fun c e =>
    let k := p.k + e.2
    let col := blockWord w 14 + j
    (fmaExact .f32 .rne false (scaled (weightAt x k col) (scaleNum x col (k / 32))) (valueOf f e.1) (valueOf .f32 c)).1) c

/-- The residue checks of one output row of a pass (06 R127, R128) find a mismatch. -/
def rowMismatch (x : WeightSet) (w : List Word) (m : Memory) (p : PassAt) (r : Nat × List Nat) : Bool :=
  let f := aFormat (bits (blockWord w 0) 5 4)
  (List.range p.cols).any (fun j =>
    let col := blockWord w 14 + p.col + j
    if bitOf (blockWord w 0) 6 then r.2.zipIdx.any (fun e => residueFails x col [(p.k + e.2, significand (valueOf f e.1))])
    else (alignRow f p r.2).zipIdx.any (fun e =>
      residueFails x col ((groupRows w m (p.k / 32 + e.2) (p.col + j)).map (fun g => (g.1, e.1.2.2.1.getD g.2 0)))))

/-- What a pass changes: the team's accumulator words, their poison, and the rows started at +0. -/
structure PassAcc where
  acc : Tbl Word
  poison : List Nat
  started : List Nat

/-- The place of element (ρ, j) of an operation in its team's tiles (06 R137). -/
def elemKey (w : List Word) (row j : Nat) : Nat :=
  accKey (bits (blockWord w 3) 6 0 + j / 128 + row / 128 * tilesAcross (blockWord w 6)) (row % 128) (j % 128)

/-- One output row of a pass added to the accumulators (06 R126, R128, R131, R132); none where it reads a poisoned element
(10 R238). -/
def rowUpdate (x : WeightSet) (w : List Word) (m : Memory) (p : PassAt) (r : Nat × List Nat) (t : PassAcc) : Option PassAcc :=
  let f := aFormat (bits (blockWord w 0) 5 4)
  let js := (List.range p.cols).map (fun j => p.col + j)
  let fresh := !bitOf (blockWord w 0) 8 && p.block == 0 && !t.started.contains r.1
  let gs := if bitOf (blockWord w 0) 6 then [] else alignRow f p r.2
  if !fresh && js.any (fun j => t.poison.contains (elemKey w r.1 j)) then none
  else
    let put := js.map (fun j =>
      let c := if fresh then 0 else (tget 0 t.acc (elemKey w r.1 j)).toNat
      (elemKey w r.1 j, if bitOf (blockWord w 0) 6 then scalarUpdate x w f p r.2 j c else blockUpdate x w m p gs j c))
    some { acc := put.foldl (fun t e => tset t e.1 (BitVec.ofNat 32 e.2)) t.acc
           poison := t.poison.filter (fun k => !put.any (fun e => e.1 == k))
           started := if fresh then t.started ++ [r.1] else t.started }

/-- The output rows of a pass in ascending order (06 R136). -/
def rowUpdates (x : WeightSet) (w : List Word) (m : Memory) (p : PassAt) : List (Nat × List Nat) → PassAcc → Option PassAcc
  | [], t => some t
  | r :: rs, t =>
    match rowUpdate x w m p r t with
    | none => none
    | some t1 => rowUpdates x w m p rs t1

/-- The EXC5 events of a pass (06 R124): one for each row and group that lost bits, in the first column chunk alone. -/
def passEvents (w : List Word) (p : PassAt) (rows : List (Nat × List Nat)) : Events :=
  if bitOf (blockWord w 0) 6 || p.chunk != 0 then []
  else rows.flatMap (fun r => (alignRow (aFormat (bits (blockWord w 0) 5 4)) p r.2).flatMap (fun g => if g.2.2.2 then [5] else []))

/-- A pass's accumulator updates made (06 R135): the next pass index, or the end of the operation. A residue mismatch ends it, its
pass written, with one EXC6 event (06 R127), be it one that the stored residues show or an error within the pass (log 33); a poisoned element that the pass reads ends it with nothing written (10 R238). -/
def applyPass (s : State) (o : AsyncOp) (w : List Word) (x : WeightSet) (ps : Pass) (residue : Bool) : State :=
  let p := passAt w x.fmt.formsB8 o.progress
  let t := getTeam s o.core o.team
  let started := if p.block = 0 && p.row = 0 then [] else o.started
  match rowUpdates x w ps.sparse p ps.rows { acc := t.acc, poison := t.accPoison, started := started } with
  | none => finishOp s ps.op o (some { err := 12, addr := 0 })
  | some r =>
    let s1 := putTeam s o.core o.team { t with acc := r.acc, accPoison := r.poison }
    let o1 := { o with events := o.events ++ passEvents w p ps.rows, started := r.started }
    if residue || ps.rows.any (rowMismatch x w ps.sparse p) then finishOp s1 ps.op { o1 with events := o1.events ++ [6] } (some { err := 8, addr := 0 })
    else advanceOp s1 ps.op o1 (passTotal w x.fmt.formsB8)

/-- The pass in progress of an engine ends (06 R135). -/
def endPass (s : State) (me : Nat) (ps : Pass) (residue : Bool) : State :=
  let s1 := putEngine s me { getEngine s me with passing := none }
  match findOp s ps.op with
  | none => s1
  | some o =>
    match o.kind with
    | .mxissue w _ _ _ _ =>
      match tfind (getEngine s me).slots (blockWord w 2) with
      | none => finishOp s1 ps.op o (some { err := 6, addr := 0 })
      | some x => applyPass s1 o w x ps residue
    | _ => s1

/-- ME_PASS_END (06 R127, R135, R144): a stop lets the pass end. -/
def execMePassEnd (me : Nat) (residue : Bool) (s : State) : Out :=
  match (getEngine s me).passing with
  | none => .next s
  | some p => .next (endPass s me p residue)

end Sys2Proof.Machine
end

