-- ==== Sys2Proof/Machine/Stops.lean ====
section
/-!
DEFINITION. Stops (10 R230-R236), deferred errors (03 R50, R51) and per-core resets (10 R239).
-/
namespace Sys2Proof.Machine

/-- The fields of a stop record (10 R234) but for SEQ, CTX and STOPCAUSE. -/
structure StopRec where
  kind : Nat
  unit : Nat := 0
  local_ : DWord := 0
  pc : DWord := 0
  lanes : DWord := 0
  addr : DWord := 0
  origin : BitVec 128 := 0
  posA : DWord := 0
  posB : DWord := 0
  counts : DWord := 0

/-- A stop record's 128 bytes (10 R234). -/
def recordBytes (seq ctx : Nat) (cause : DWord) (r : StopRec) : List Byte :=
  natBytes 8 (r.kind + r.unit * 2 ^ 16 + ctx * 2 ^ 32 + seq * 2 ^ 48) ++ natBytes 8 cause.toNat ++ natBytes 8 r.local_.toNat ++
    natBytes 8 r.pc.toNat ++ natBytes 8 r.lanes.toNat ++ natBytes 8 r.addr.toNat ++ natBytes 16 r.origin.toNat ++
    natBytes 8 r.posA.toNat ++ natBytes 8 r.posB.toNat ++ natBytes 8 r.counts.toNat ++ natBytes 40 0

/-- A lost stop record counted (10 R233, 11 R261). -/
def loseRecord (s : State) (sl ctx : Nat) : State :=
  let x := getCtx s sl ctx
  putCtx s sl ctx { x with lostRec := min 0xFFFF (x.lostRec + 1) }

/-- The first cause of a context's stop. -/
def stopCause (x : Ctx) (own : DWord) : DWord :=
  match x.stop with
  | none => own
  | some st => st.cause

/-- A stop record put into the next slot of the sump (10 R233): one that finds the sump full, or whose write faults, is lost. None
while a port does not answer. -/
def writeRecord (s : State) (sl ctx : Nat) (r : StopRec) : Option State :=
  let x := getCtx s sl ctx
  let n := x.nextSump
  if 256 ≤ n then some (loseRecord s sl ctx)
  else
    let s0 := putCtx s sl ctx { x with nextSump := n + 1 }
    match ringWrite s0 sl (x.saveBase.toNat + n * 128) (recordBytes n ctx (stopCause x r.local_) r) with
    | .error .waits => none
    | .error e => some (reportTr (loseRecord s0 sl ctx) sl ctx e)
    | .ok s1 => some s1

/-- Status 3 for a launch record (10 R233, 09 R204): after the status 6 that its grid still has to get (09 R210). -/
def stopRecord (s : State) (sl m : Nat) (h : Held) : Option State :=
  (if h.done then completeHeld s sl m h else some s).bind (fun s1 => postStatus s1 sl m h 3 0 false)

/-- Status 3 for the context's grids (10 R233, 09 R204). -/
def stopGrids (s : State) (sl : Nat) : List (Nat × Grid) → Option State
  | [] => some s
  | g :: t =>
    (match g.2.record, findHeld s sl g.2.mbox g.2.seq with
     | some h, _ => postMoved s sl h 3 0 false
     | none, some h => stopRecord s sl g.2.mbox h
     | none, none => some s).bind (fun s1 => stopGrids s1 sl t)

/-- The mailboxes of a context's grids whose ENABLE is clear wait for the stopped launches no longer (09 R219). -/
def releaseGrids (s : State) (sl : Nat) (gs : List (Nat × Grid)) : State := gs.foldl (fun s g => releaseStopped s sl g.2.mbox) s

/-- The last unit has stopped (10 R233): the grids' status, the context-stopped vector, and the context stopped. -/
def closeStop (s : State) (sl ctx : Nat) : Option State :=
  match (getCtx s sl ctx).stop with
  | none => some s
  | some st =>
    if st.closed || !st.units.isEmpty then some s
    else
      match stopGrids s sl (gridsOf s sl ctx) with
      | none => none
      | some s1 =>
        let x := getCtx s1 sl ctx
        let s2 := putCtx s1 sl ctx { x with state := if x.state = 1 ∨ x.state = 2 then 3 else x.state,
                                            stop := some { st with closed := true } }
        some (raiseEvent (releaseGrids s2 sl (gridsOf s sl ctx)) sl 1 ctx 0 0 0 0)

/-- DEFERRED_ERROR's record (03 R51; 10 R233, R234). -/
def deferredRecord (d : Deferred) : StopRec :=
  { kind := 4, local_ := causeWord 0x2A d.sub 0 true false, origin := d.record }

/-- A deferred error of a context that no longer exists (03 R51; 11 R256): the VF is told, and the first 16 records are kept. -/
def orphanError (s : State) (d : Deferred) : State :=
  let s1 := raiseEvent s d.slice 9 d.ctx 0 0 0 (BitVec.ofNat 64 (d.record.toNat % 2 ^ 57))
  let x := getSlice s1 d.slice
  if x.deforig.length < 16 then putSlice s1 d.slice { x with deforig := x.deforig ++ [d.record] } else countDetected s1 d.slice

/-- A deferred error of a context recorded (03 R51; 10 R230, R233): it raises the stop line; after a stop's last record it writes one
more and raises the vector again. -/
def recordDeferred (s : State) (d : Deferred) : Option State :=
  let was := (getCtx s d.slice d.ctx).stop
  match writeRecord (raiseStop s d.slice d.ctx (deferredRecord d).local_) d.slice d.ctx (deferredRecord d) with
  | none => none
  | some s1 =>
    match was with
    | none => closeStop s1 d.slice d.ctx
    | some st => some (if st.closed then raiseEvent s1 d.slice 1 d.ctx 0 0 0 0 else s1)

/-- DEFERRED_ERROR (03 R51): the oldest error found and not yet recorded. -/
def execDeferredError (s : State) : Out :=
  match s.deferred with
  | [] => .next s
  | d :: rest =>
    if s.powerLatch then .next s
    else if (getCtx s d.slice d.ctx).state = 0 then .next (orphanError { s with deferred := rest } d)
    else .next ((recordDeferred { s with deferred := rest } d).getD s)

/-- A unit's number in a stop record (10 R234). -/
def unitNumber : EngineRef → Nat
  | .core n => n
  | .me n => n
  | .copy n => n
  | .coll n => n

/-- A unit's kind in a stop record (10 R234). -/
def unitKind : EngineRef → Nat
  | .core _ => 0
  | .me _ => 1
  | .copy _ => 2
  | .coll _ => 3

/-- The warps of a context on a core. -/
def ctxWarps (s : State) (core sl ctx : Nat) : List (Nat × Warp) :=
  (getCore s core).warps.filter (fun e => e.2.slice == sl && e.2.ctx == ctx)

/-- The first warp of a context that faulted on a core (10 R236). -/
def firstFaulted (s : State) (core sl ctx : Nat) : Option (Nat × Warp) :=
  ((ctxWarps s core sl ctx).filter (fun e => e.2.faulted)).foldl (fun r e => match r with
    | none => some e
    | some b => if e.2.dispatch.getD 0 < b.2.dispatch.getD 0 then some e else r) none

/-- A core's stop record (10 R234, R235). -/
def coreRecord (s : State) (core sl ctx : Nat) : StopRec :=
  let bank := if (getCore s core).bank1.owner == some ctx then 256 else 0
  let n := ((ctxWarps s core sl ctx).filter (fun e => liveLanes e.2 != 0)).length
  match firstFaulted s core sl ctx with
  | none => { kind := 0, unit := core, posA := BitVec.allOnes 64, posB := BitVec.ofNat 64 (bank + n) }
  | some (slot, w) =>
    { kind := 0, unit := core, local_ := w.trapCause, pc := w.trapPc, lanes := w.trapLanes, addr := w.trapAddr,
      posA := BitVec.ofNat 64 ((getTeam s core w.team).number * 2 ^ 22 + slot * 2 ^ 16 + slotGen s core slot),
      posB := BitVec.ofNat 64 (w.doublePc.toNat % 2 ^ 32 * 2 ^ 32 + bank + n), counts := ocntOf w }

/-- The operations of a context that a unit holds, oldest first. -/
def unitOps (s : State) (sl ctx : Nat) (u : EngineRef) : List (Nat × AsyncOp) :=
  s.ops.filter (fun e => e.2.slice == sl && e.2.ctx == ctx && e.2.cls != 2 && opUnit e.2 == u)

/-- An operation failed after its warps had exited (10 R235). -/
def failedAlone (s : State) (o : AsyncOp) : Bool := o.finished && o.err.isSome && (o.dropped || opExited s o)

/-- The operation concerned in an engine's stop record (10 R235; 06 R437): one that failed after its warps had exited; else the one
whose pass the stop cut; else the oldest unfinished one, MXISSUEs ahead of WLOADs. -/
def concernedOp (s : State) (sl ctx : Nat) (u : EngineRef) (cut : Option Nat) : Option AsyncOp :=
  let os := unitOps s sl ctx u
  let open_ := os.filter (fun e => !e.2.finished)
  ((os.find? (fun e => failedAlone s e.2)).or ((open_.find? (fun e => cut == some e.1)).or
    ((open_.find? (fun e => !isWload e.2)).or open_.head?))).map (fun e => e.2)

/-- The cause that an operation's failure has in a record (10 R221, R222). -/
def opCause (o : AsyncOp) : DWord :=
  match o.err with
  | none => 0
  | some e => causeWord 0x27 e.err o.cls true false

/-- The address of an operation's failure. -/
def opAddr (o : AsyncOp) : DWord :=
  match o.err with
  | none => 0
  | some e => e.addr

/-- An engine's stop record (10 R234, R235). -/
def engineRecord (u : EngineRef) (o : AsyncOp) : StopRec :=
  { kind := unitKind u, unit := unitNumber u, local_ := opCause o, addr := opAddr o, posA := positionOf o, posB := o.pos }

/-- The oldest failure of a unit's operation that a wait of a context's warps has surfaced (07 R167). -/
def surfacedErr (s : State) (sl ctx : Nat) (u : EngineRef) : Option AsyncErr :=
  ((coresOf s sl).flatMap (fun n => (ctxWarps s n sl ctx).filterMap (fun e =>
    if e.2.faulted then e.2.concerned.filter (fun f => f.cls != 2 && f.unit == u) else none))).foldl (fun r e => match r with
      | none => some e
      | some x => if e.age < x.age then some e else some x) none

/-- The stop record of an engine one of whose operations surfaced as a fault at a wait: it names the operation's issue position and its
progress (07 R167). -/
def surfacedRecord (e : AsyncErr) : StopRec :=
  { kind := unitKind e.unit, unit := unitNumber e.unit, local_ := causeWord 0x27 e.err e.cls true false, addr := e.addr,
    posA := e.progress, posB := e.pos }

/-- The gather of a core that failed after its warps had exited (10 R235). -/
def failedGather (s : State) (core sl ctx : Nat) : Option AsyncOp :=
  (s.ops.find? (fun e => e.2.slice == sl && e.2.ctx == ctx && e.2.core == core && e.2.cls == 2 && e.2.dropped)).map (fun e => e.2)

/-- A core's records (10 R234, R235): its own and that of its gather unit. -/
def coreRecords (s : State) (core sl ctx : Nat) : Option State :=
  match writeRecord s sl ctx (coreRecord s core sl ctx) with
  | none => none
  | some s1 =>
    match failedGather s core sl ctx with
    | none => some s1
    | some o => writeRecord s1 sl ctx { kind := 6, unit := core, local_ := opCause o, addr := opAddr o, posB := o.pos }

/-- A unit's records of a stop (10 R235): an engine names the failure of its own that a wait surfaced (07 R167), else the operation
concerned; one that holds neither writes none. -/
def unitRecords (s : State) (sl ctx : Nat) (u : EngineRef) (cut : Option Nat) : Option State :=
  match u with
  | .core n => coreRecords s n sl ctx
  | .me _ | .copy _ | .coll _ =>
    match surfacedErr s sl ctx u, concernedOp s sl ctx u cut with
    | some e, _ => writeRecord s sl ctx (surfacedRecord e)
    | none, some o => writeRecord s sl ctx (engineRecord u o)
    | none, none => some s

/-- The warps of a context on a core that a stop has reached lose their unretired instructions (10 R231). -/
def discardCtx (s : State) (sl ctx : Nat) (u : EngineRef) : State :=
  match u with
  | .core n => putCore s n { getCore s n with
      warps := tmap (getCore s n).warps (fun _ w => if w.slice == sl && w.ctx == ctx then discard w else w) }
  | .me _ | .copy _ | .coll _ => s

/-- A unit has finished its stop (10 R231): a core's unretired instructions and failed operations kept for its record go, and a matrix
engine's permits return. -/
def unitStopped (s0 : State) (sl ctx : Nat) (u : EngineRef) : State :=
  let s := discardCtx s0 sl ctx u
  let gone := fun (o : AsyncOp) => o.slice == sl && o.ctx == ctx && o.dropped && opUnit o == u
  let mine := fun (o : AsyncOp) => o.slice == sl && o.ctx == ctx && o.cls == 1 && opUnit o == u && !o.finished
  let x := getCtx s sl ctx
  let s1 := { s with ops := tmap (tkeep s.ops (fun _ o => !gone o)) (fun _ o => if mine o then { o with permit := .none } else o) }
  match x.stop with
  | none => s1
  | some st => putCtx s1 sl ctx { x with stop := some { st with units := st.units.filter (· != u), ended := st.ended ++ [u] } }

/-- The operation of the context that a stop cut on an engine (10 R235): whose pass is in progress, or whose burst or step was the last
to end since the line rose. -/
def cutPass (s : State) (sl ctx : Nat) (u : EngineRef) : Option Nat :=
  match u with
  | .me n =>
    match (getEngine s n).passing with
    | none => none
    | some p => if (findOp s p.op).any (fun o => o.slice == sl && o.ctx == ctx) then some p.op else none
  | .core _ => none
  | .copy _ | .coll _ =>
    match (getCtx s sl ctx).stop with
    | none => none
    | some st => (st.cut.find? (fun e => e.1 == u)).map (fun e => e.2)

/-- The pass in progress brought to its end at a stop (10 R231, 06 R144); one with a residue mismatch ends by ME_PASS_END before. -/
def endCut (s : State) (u : EngineRef) (cut : Option Nat) : State :=
  match u, cut with
  | .me n, some _ =>
    match (getEngine s n).passing with
    | none => s
    | some p => endPass s n p false
  | _, _ => s

/-- Gathers of a context on a core are in flight: they complete before the unit has stopped (10 R231). -/
def gathersLeft (s : State) (sl ctx : Nat) (u : EngineRef) : Bool :=
  match u with
  | .core n => s.ops.any (fun e => e.2.slice == sl && e.2.ctx == ctx && e.2.core == n && e.2.cls == 2 && !e.2.dropped)
  | .me _ => false
  | .copy _ => false
  | .coll _ => false

/-- The stop of one unit: its records, and the end of the stop where it is the last. -/
def stopUnit (s : State) (sl ctx : Nat) (u : EngineRef) : Option State :=
  let cut := cutPass s sl ctx u
  match unitRecords (endCut s u cut) sl ctx u cut with
  | none => none
  | some s1 => closeStop (unitStopped s1 sl ctx u) sl ctx

/-- ENGINE_STOP (10 R231-R235): once no unit is left, the end of a stop that waited for a port. -/
def execEngineStop (slice ctx : Nat) (unit : EngineRef) (s : State) : Out :=
  match (getCtx s slice ctx).stop with
  | none => .next s
  | some st =>
    if s.powerLatch || st.closed then .next s
    else if st.units.isEmpty then .next ((closeStop s slice ctx).getD s)
    else if !st.units.contains unit || gathersLeft s slice ctx unit then .next s
    else .next ((stopUnit s slice ctx unit).getD s)

/-- A team's declines on every counter that it has left (09 R215). -/
def declineAll (g : Grid) (order : Nat) : Grid :=
  (List.range 16).foldl (fun g c => if g.claims.contains (c, order) then g else noteClaim g c order) g

/-- One team lost with its core (10 R239): a deterministic one that had exited, and stood there until its team cluster retires, is not. -/
def loseTeam (s : State) (t : Team) : State :=
  match tfind (getSlice s t.slice).grids t.grid with
  | none => s
  | some g =>
    if t.spawned then putGrid s t.slice t.grid { g with lost := g.lost + 1 }
    else if g.exited.contains t.order then s
    else putGrid s t.slice t.grid { declineAll g t.order with lost := g.lost + 1, exited := g.exited ++ [t.order] }

/-- A core leaves the stops in progress on its slice (10 R247); a stop that waited for it alone ends. -/
def leaveStops (s : State) (sl core : Nat) : State :=
  (getSlice s sl).ctxs.foldl (fun s e =>
    match (getCtx s sl e.1).stop with
    | none => s
    | some st =>
      let s1 := putCtx s sl e.1 { getCtx s sl e.1 with stop := some { st with
        units := st.units.filter (· != .core core), ended := st.ended ++ [.core core] } }
      (closeStop s1 sl e.1).getD s1) s

/-- A per-core reset (10 R239): stores reach home first; the core's operations end with no report; every SRAM is zeroed; its teams
are lost. None while a port does not answer. -/
def resetCore (s : State) (core : Nat) : Option State :=
  match drainAll s core with
  | none => none
  | some s1 =>
    let k := getCore s1 core
    let me := getEngine s1 (clusterOf core)
    let mine := fun (id : Nat) => (findOp s1 id).any (fun o => o.core == core)
    let s2 := putEngine { s1 with ops := tkeep s1.ops (fun _ o => o.core != core), tlb := s1.tlb.filter (fun e => e.unit != core && e.unit != fetchUnit core) }
      (clusterOf core) { me with passing := me.passing.filter (fun p => !mine p.op) }
    let s3 := k.teams.foldl (fun s t => loseTeam s t.2) s2
    let s4 := { s3 with cores := tdel s3.cores core }
    match sliceOfCore s core with
    | none => some s4
    | some sl => some (raiseEvent (leaveStops s4 sl core) sl 3 0 core 0 k.teams.length 0)

/-- CORE_RESET (10 R239, 11 R260): a core outside the slice is ignored. -/
def execCoreReset (slice : Nat) (value : DWord) (s : State) : Out :=
  let core := bits value.toNat 6 0
  if !accepts s || !value.getLsbD 7 || sliceOfCore s core != some slice then .next s else .next ((resetCore s core).getD s)

/-- CORE_CONTROL_ERROR (10 R239; 11 R257, R274). -/
def execCoreControlError (core : Nat) (s : State) : Out :=
  match sliceOfCore s core with
  | none => .next s
  | some sl =>
    match resetCore s core with
    | none => .next s
    | some s1 => .next (noteContained s1 sl)

end Sys2Proof.Machine
end

