-- ==== Sys2Proof/Machine/Storage.lean ====
section
/-!
DEFINITION. Where a team fits (02 R21-R23; 09 R208, R209, R213) and how it is put on a core (02 R19, R20, R39; 09 R208).
-/
namespace Sys2Proof.Machine

/-- What a team asks of a core (02 R21, 09 R208): its warps, slow-file bytes, accumulator tiles and tag range, at a grant. -/
structure Need where
  grant : Nat
  warps : Nat
  bytes : Nat
  tiles : Nat
  tagBase : Nat
  tagCount : Nat

/-- The bank context that a context uses on a core (09 R208): its own; else a free one, the running one first (log 50). -/
def bankFor (c : Core) (ctx : Nat) : Option Nat :=
  if c.bank0.owner = some ctx then some 0
  else if c.bank1.owner = some ctx then some 1
  else if (c.bank c.running).owner = none then some c.running
  else if (c.bank (1 - c.running)).owner = none then some (1 - c.running)
  else none

/-- Two tag ranges overlap (09 R208). -/
def tagsMeet (b n b' n' : Nat) : Bool := n != 0 && n' != 0 && decide (b < b' + n' ∧ b' < b + n)

/-- A team fits on a core (02 R21, 09 R208). -/
def fitsOn (s : State) (core ctx : Nat) (x : Need) : Bool :=
  let c := getCore s core
  match bankFor c ctx with
  | none => false
  | some b =>
    decide (x.grant ≤ coreLanes s core) && decide (c.warps.length + x.warps ≤ 56) && decide (slowHeld c + x.bytes ≤ slowBytes) &&
      decide (tilesOf c b + x.tiles ≤ 128) &&
      !c.teams.any (fun t => t.2.bank == b && tagsMeet t.2.tagBase t.2.tagCount x.tagBase x.tagCount)

/-- A team's warps at a grant (02 R19). -/
def warpCount (threads grant : Nat) : Nat := (threads + grant - 1) / grant

/-- Threads of a team shape. -/
def shapeThreads (x : Nat × Nat × Nat) : Nat := x.1 * x.2.1 * x.2.2

/-- A kernel's team at a grant (02 R20, R21). -/
def kernelNeed (k : Kernel) (grant : Nat) : Need :=
  let w := warpCount (shapeThreads k.shape) grant
  let p := min k.prod w
  { grant := grant, warps := w, bytes := (p * (k.pregs + k.pdeep) + (w - p) * (k.cregs + k.cdeep)) * grant * 4,
    tiles := k.accTiles, tagBase := k.tagBase, tagCount := k.tagCount }

/-- The width request and exact bit of a word at a kernel's entry, if it is a well-formed SETW (02 R22). -/
def setwOf (w : Nat) : Option (Nat × Bool) :=
  match decode w 0 with
  | .ok (.setw _ e q) => some (q.toNat, e == 1)
  | .ok _ => none
  | .error _ => none

/-- The word at a kernel's entry as the ringmaster reads it at a placement (02 R22); none where it cannot be read. -/
def entryWord (s : State) (sl ctx : Nat) (entry : DWord) : Option Nat :=
  match translate s (ringUnit sl) sl ctx entry .read with
  | .error _ => none
  | .ok (k, s1) => if isPoisoned s1 k || reach s1 sl k != .ok then none else some (bytesNat (freshBytes s1 sl k 4))

/-- The word at a kernel's entry waits for a port (11 R258). -/
def entryWaits (s : State) (sl ctx : Nat) (entry : DWord) : Bool :=
  match translate s (ringUnit sl) sl ctx entry .read with
  | .error .waits => true
  | .error _ => false
  | .ok (k, s1) => !isPoisoned s1 k && reach s1 sl k == .waits

/-- The width request and exact bit of a launch (02 R22): a SETW at the entry, else the header. -/
def requestFor (s : State) (sl ctx : Nat) (k : Kernel) : Nat × Bool :=
  match (entryWord s sl ctx k.entry).bind setwOf with
  | some r => r
  | none => (bits k.header 24 23, bitOf k.header 22)

/-- The grants that a request allows, widest first (02 R22, R23). -/
def grantsFor (r : Nat × Bool) : List Nat :=
  match r.1 with
  | 1 => [16]
  | 2 => if r.2 then [32] else [32, 16]
  | 3 => if r.2 then [64] else [64, 32, 16]
  | _ => [64, 32, 16]

/-- The grant that a kernel's team gets on a core (02 R23). -/
def grantOn (s : State) (core ctx : Nat) (k : Kernel) (gs : List Nat) : Option Nat :=
  gs.find? (fun g => fitsOn s core ctx (kernelNeed k g))

/-- The core that gives the largest grant, then has the fewest warps, then the lowest number (09 R209). -/
def betterCore (s : State) (a b : Nat × Nat) : Nat × Nat :=
  if a.2 < b.2 then b
  else if a.2 = b.2 && decide ((getCore s b.1).warps.length < (getCore s a.1).warps.length) then b
  else a

/-- The core and grant for a kernel's team among some cores in ascending order (09 R209). -/
def chooseCore (s : State) (cores : List Nat) (ctx : Nat) (k : Kernel) (gs : List Nat) : Option (Nat × Nat) :=
  (cores.filterMap (fun c => (grantOn s c ctx k gs).map (fun g => (c, g)))).foldl (fun r e => match r with
    | none => some e
    | some b => some (betterCore s b e)) none

/-- A core with no team on it. -/
def emptyCore (s : State) (core : Nat) : State := { s with cores := tdel s.cores core }

/-- Several cores with no team on them. -/
def emptyCores (s : State) (cores : List Nat) : State := cores.foldl emptyCore s

/-- A bank context for a context on a core (09 R208, R216): a newly received one is fresh. -/
def takeBank (c : Core) (b ctx : Nat) : Core :=
  if (c.bank b).owner = some ctx then c else c.putBank b { owner := some ctx, waitSeq := (c.bank b).waitSeq }

/-- A warp put into the lowest free slot of a core, whose generation moves on (03 R53); it waits its turn (03 R62). -/
def addWarp (s : State) (core : Nat) (w : Warp) : State :=
  let c := getCore s core
  match tfree c.warps 56 0 with
  | none => s
  | some slot =>
    let b := c.bank w.bank
    let c1 := c.putBank w.bank { b with waitSeq := b.waitSeq + 1 }
    putCore s core { c1 with warps := tset c1.warps slot { w with loc := .waiting b.waitSeq },
                             gens := tset c1.gens slot ((tget 0 c1.gens slot + 1) % 2 ^ 16) }

/-- The s registers of a team's warps at its start (09 R208). -/
def argRegs (args : List DWord) : Tbl DWord := (args.zipIdx.map (fun a => (a.2 + 1, a.1))).filter (fun e => decide (e.1 ≤ 8))

/-- Warp i of a team at its start (02 R19, R20; 03 R56; 09 R208; 10 R223). -/
def startWarp (t : Team) (team i : Nat) : Warp :=
  let p := decide (i < t.prod)
  { slice := t.slice, ctx := t.ctx, bank := t.bank, team := team, warpix := i, producer := p, grant := t.grant,
    present := lanesBelow (min t.grant (t.threads - i * t.grant)),
    areg := if p then t.pregs else t.cregs, amax := if p then t.pregs else t.cregs,
    deep := if p then t.pdeep else t.cdeep, dmax := if p then t.pdeep else t.cdeep,
    s := argRegs t.args, pcs := laneList (fun _ => t.entry), det := bitOf t.header 27, trapBase := t.trapVa }

/-- A team put on a core with its warps (09 R208): its tags are clear. -/
def putOnCore (s : State) (core : Nat) (t : Team) (ws : Nat → Team → List Warp) : State :=
  let c := getCore s core
  match bankFor c t.ctx, tfree c.teams 56 0 with
  | some b, some i =>
    let c1 := takeBank c b t.ctx
    let t1 := { t with bank := b }
    let c2 := c1.putBank b (clearTags (c1.bank b) (tagRange t1))
    (ws i t1).foldl (fun s w => addWarp s core w) (putCore s core { c2 with teams := tset c2.teams i t1 })
  | _, _ => s

/-- A team's coordinates from its number (02 R19). -/
def coordOf (dims : Nat × Nat × Nat) (n : Nat) : Nat × Nat × Nat := (n % dims.1, n / dims.1 % dims.2.1, n / (dims.1 * dims.2.1))

/-- A grid's team as it is placed (02 R19-R23; 09 R208). -/
def gridTeam (sl id : Nat) (g : Grid) (number order grant : Nat) : Team :=
  let k := g.kernel
  { slice := sl, ctx := g.ctx, grid := id, number := number, order := order, coord := coordOf g.dims number, shape := k.shape,
    gridDim := (g.dims.1 - 1, g.dims.2.1 - 1, g.dims.2.2 - 1), threads := shapeThreads k.shape, grant := grant, prod := k.prod,
    entry := k.entry, trapVa := k.trapVa, quiesceVa := k.quiesceVa, header := k.header, pregs := k.pregs, cregs := k.cregs,
    pdeep := k.pdeep, cdeep := k.cdeep, accB := k.accTiles, tagBase := k.tagBase, tagCount := k.tagCount, args := g.args, pool := g.pool }

/-- A team's warps at its start. -/
def startWarps (i : Nat) (t : Team) : List Warp := (List.range (warpCount t.threads t.grant)).map (startWarp t i)

/-- A grid's next team put on a core (09 R207, R208): its threads find no older copy there of what the launch follows (09 R195, R197; log 117). -/
def placeTeam (s : State) (sl id core grant number order : Nat) (g : Grid) : State :=
  acquireCopies (putOnCore s core (gridTeam sl id g number order grant) startWarps) core sl 4

/-- A spawned team (02 R39, 14 R346): consumer warps under the spawning kernel's descriptor, with no tags and no tiles; one warp, but where a
resume has made the grant smaller than the batch (02 R24). -/
def spawnTeam (sl : Nat) (b : Bin) (g : Grid) : Team :=
  { gridTeam sl b.grid g 0 0 b.grant with
    coord := (0, 0, 0), shape := (b.threads.length, 1, 1), gridDim := (0, 0, 0), threads := b.threads.length, prod := 0,
    entry := b.entry, accB := 0, tagBase := 0, tagCount := 0, args := [], spawned := true }

/-- The words that spawned threads start with (02 R39): v0 and v1. -/
def spawnWarps (b : Bin) (i : Nat) (t : Team) : List Warp :=
  (List.range (warpCount t.threads t.grant)).map (fun n =>
    let th := fun (l : Nat) => b.threads.getD (n * t.grant + l) { arg0 := 0, arg1 := 0 }
    { startWarp t i n with v := [(0, laneList (fun l => (th l).arg0)), (1, laneList (fun l => (th l).arg1))] })

/-- What a spawned team asks of a core (02 R21, R39); one of translated code runs on cores of any width (12 R287; log 122). -/
def spawnNeed (b : Bin) (k : Kernel) : Need :=
  let n := warpCount b.threads.length b.grant
  { grant := if inWindow b.entry.toNat then 16 else b.grant, warps := n, bytes := n * (k.cregs + k.cdeep) * b.grant * 4, tiles := 0,
    tagBase := 0, tagCount := 0 }

/-- The core for a spawned team (02 R39): the spawning one if it fits there, else the one with the fewest warps. -/
def spawnCore (s : State) (sl : Nat) (x : SpawnBatch) (k : Kernel) : Option Nat :=
  let n := spawnNeed x.bin k
  if (coresOf s sl).contains x.core && fitsOn s x.core x.bin.ctx n then some x.core
  else (((coresOf s sl).filter (fun c => fitsOn s c x.bin.ctx n)).foldl (fun r c => match r with
    | none => some (c, 0)
    | some b => some (betterCore s b (c, 0))) none).map (fun r => r.1)

/-- A team off its core (13 R323): its warps, tiles, barriers and tags go; a bank context with no team left is free again. -/
def removeTeam (s : State) (core team : Nat) : State :=
  let c := getCore s core
  match tfind c.teams team with
  | none => s
  | some t =>
    let teams := tdel c.teams team
    let c1 := c.putBank t.bank (clearTags (c.bank t.bank) (tagRange t))
    let c2 := { c1 with teams := teams, warps := tkeep c1.warps (fun _ w => w.team != team) }
    putCore s core (if teams.any (fun x => x.2.bank == t.bank) then c2 else c2.putBank t.bank { waitSeq := (c2.bank t.bank).waitSeq })

end Sys2Proof.Machine
end

