-- ==== Sys2Proof/Machine/Quiesce.lean ====
section
/-!
DEFINITION. Quiesce, forced save, export and import, resume with re-slicing, and the end of a context (10 R242-R244, R247; 02 R24-R27,
R39, R428; 06 R146, R437; 11 R263-R266).
-/
namespace Sys2Proof.Machine

/-- SLCMD as a command leaves it, with the state of the last command (11 R260). -/
def setCommand (s : State) (sl cmd ctx st : Nat) : State :=
  putSlice s sl { getSlice s sl with slcmd := BitVec.ofNat 64 (cmd + ctx % 16 * 2 ^ 8), slstat := st }

/-- The state of the last command alone. -/
def setSlstat (s : State) (sl st : Nat) : State := putSlice s sl { getSlice s sl with slstat := st }

/-- A command refused in the context's state (11 R264). -/
def refuseCommand (s : State) (sl cmd ctx : Nat) : Out := .next (setCommand s sl cmd ctx 2)

/-- A save or export step has ended (11 R256). -/
def stepDone (s : State) (sl cmd ctx : Nat) : State := raiseEvent (setSlstat s sl 0) sl 8 ctx 0 0 0 (BitVec.ofNat 64 cmd)

/-- The operations of a context changed. -/
def modOps (s : State) (sl ctx : Nat) (f : AsyncOp → AsyncOp) : State :=
  { s with ops := tmap s.ops (fun _ o => if o.slice == sl && o.ctx == ctx then f o else o) }

/-- The warps of a context changed on the slice's cores. -/
def modWarps (s : State) (sl ctx : Nat) (f : Warp → Warp) : State :=
  (coresOf s sl).foldl (fun s n => putCore s n { getCore s n with
    warps := tmap (getCore s n).warps (fun _ w => if w.slice == sl && w.ctx == ctx then f w else w) }) s

/-- An unfinished matrix operation suspended at a quiesce (10 R242, 06 R437). -/
def suspendMatrix (o : AsyncOp) : AsyncOp := if o.cls = 1 && !o.finished then suspendOp o else o

/-- QUIESCE (10 R242, R247; 11 R264): from running, idle or stopped; a stopped context gets no trap. -/
def execQuiesce (slice ctx : Nat) (s : State) : Out :=
  whenOpen s
    (let x := getCtx s slice ctx
     if x.state != 1 && x.state != 2 && x.state != 3 then refuseCommand s slice 1 ctx
     else
       let s1 := putCtx s slice ctx { x with state := 4, quiesce := some { delivered := [], expired := x.state == 3 } }
       .next (setCommand (modOps s1 slice ctx suspendMatrix) slice 1 ctx 1))

/-- A pass of a context's operation of a core is in progress. -/
def passOf (s : State) (sl ctx : Nat) (p : AsyncOp → Bool) : Bool :=
  s.engines.any (fun e => match e.2.passing with
    | none => false
    | some ps => (findOp s ps.op).any (fun o => o.slice == sl && o.ctx == ctx && p o))

/-- QUIESCE_TRAP_DELIVERY (10 R242): once the core's matrix operations stand still. -/
def execQuiesceTrapDelivery (slice ctx core : Nat) (s : State) : Out :=
  let x := getCtx s slice ctx
  match x.quiesce with
  | none => .next s
  | some q =>
    if s.powerLatch || x.state != 4 || q.expired || x.stop.isSome || q.delivered.contains core || passOf s slice ctx (fun o => o.core == core) ||
        sliceOfCore s core != some slice then .next s
    else
      let s1 := putCtx s slice ctx { x with quiesce := some { q with delivered := q.delivered ++ [core] } }
      .next (putCore s1 core { getCore s1 core with
        warps := tmap (getCore s1 core).warps (fun _ w => if w.slice == slice && w.ctx == ctx then { w with qpend := true } else w) })

/-- A warp counts as exited or held for a quiesce (10 R242, R243). -/
def standsHeld (w : Warp) : Bool := w.held || liveLanes w == 0 || (w.qpend && runnable w == 0)

/-- Operations that a quiesce waits for (10 R243). -/
def drains (o : AsyncOp) : Bool := o.cls != 1 && !o.finished

/-- A context's quiesce is complete (10 R243). -/
def quiesceDone (s : State) (sl ctx : Nat) (q : Quiesce) : Bool :=
  (coresOf s sl).all (fun n => (ctxWarps s n sl ctx).isEmpty ||
    (q.delivered.contains n && (ctxWarps s n sl ctx).all (fun e => standsHeld e.2))) &&
    !s.ops.any (fun o => o.2.slice == sl && o.2.ctx == ctx && drains o.2) && !passOf s sl ctx (fun _ => true)

/-- The engines of a context stand at their boundaries (10 R244): no pass in progress and no gather in flight. -/
def enginesStand (s : State) (sl ctx : Nat) : Bool :=
  !passOf s sl ctx (fun _ => true) && !s.ops.any (fun o => o.2.slice == sl && o.2.ctx == ctx && o.2.cls == 2 && !o.2.finished)

/-- The teams of a context on a core. -/
def ctxTeams (s : State) (core sl ctx : Nat) : List (Nat × Team) :=
  (getCore s core).teams.filter (fun t => t.2.slice == sl && t.2.ctx == ctx)

/-- A warp as it is saved (10 R244): at a retire boundary, with its quiesce trap ended; its dispatches and the operation that its stop would
name go with the core. -/
def savedWarp (w : Warp) : Warp := discard { w with qpend := false, faulted := false, concerned := none }

/-- The warps of a team that have a lane not exited, with their slots and generations. -/
def liveWarps (s : State) (core team : Nat) : List (Nat × Nat × Warp) :=
  (getCore s core).warps.filterMap (fun e =>
    if e.2.team = team && liveLanes e.2 != 0 then some (e.1, slotGen s core e.1, savedWarp e.2) else none)

/-- The slots and generations of a team's warps whose lanes have all exited. -/
def goneWarps (s : State) (core team : Nat) : List (Nat × Nat) :=
  (getCore s core).warps.filterMap (fun e => if e.2.team = team && liveLanes e.2 == 0 then some (e.1, slotGen s core e.1) else none)

/-- Some operation of a team is in flight. -/
def teamOps (s : State) (core team : Nat) : Bool := s.ops.any (fun o => o.2.core == core && o.2.team == team && !o.2.dropped)

/-- A team as it is saved (10 R244). -/
def saveTeam (s : State) (core : Nat) (t : Nat × Team) : SavedTeam :=
  let b := (getCore s core).bank t.2.bank
  { team := t.2, index := t.1, core := core, slots := liveWarps s core t.1, gone := goneWarps s core t.1, tagRdy := b.tagRdy &&& tagRange t.2,
    tagErrs := tkeep b.tagErrs (fun n _ => (tagRange t.2).getLsbD n) }

/-- The teams of a context that are saved (10 R244): those with a saved warp or operation. -/
def savedTeams (s : State) (sl ctx : Nat) : List SavedTeam :=
  (coresOf s sl).flatMap (fun n => ((ctxTeams s n sl ctx).map (saveTeam s n)).filter
    (fun t => !t.slots.isEmpty || teamOps s n t.index))

/-- The weight set that an unfinished MXISSUE names (06 R146), as its engine holds it. -/
def namedSet (s : State) (o : AsyncOp) : Option (Nat × Nat × WeightSet) :=
  match o.kind with
  | .mxissue w _ _ _ gen =>
    if o.finished then none
    else
      match tfind (getEngine s (clusterOf o.core)).slots (blockWord w 2) with
      | none => none
      | some x => if x.gen = gen && x.slice == o.slice && x.ctx == o.ctx then some (clusterOf o.core, blockWord w 2, x) else none
  | _ => none

/-- An unfinished sparse operation (14 R336). -/
def isSparse (o : AsyncOp) : Bool :=
  match o.kind with
  | .mxissue w _ _ _ _ => bitOf (blockWord w 0) 7 && !o.finished
  | _ => false

/-- The metadata halves that a save takes (14 R336): core, bank and bytes. -/
def sparseHalves (s : State) (os : List AsyncOp) : List (Nat × Nat × Memory) :=
  ((os.filter isSparse).map (fun o => (o.core, o.bank))).eraseDups.map (fun k => (k.1, k.2, ((getCore s k.1).bank k.2).sparse))

/-- The spawn bins of a context on the slice's cores. -/
def ctxBins (s : State) (sl ctx : Nat) : List (Nat × Bin) :=
  (coresOf s sl).flatMap (fun n => (getCore s n).bins.filterMap (fun b => if b.2.ctx = ctx then some (n, b.2) else none))

/-- An operation as it is saved: suspended, with no permit. -/
def savedOp (o : AsyncOp) : AsyncOp := { o with suspended := true, away := false, permit := .none }

/-- The counts of a context on the slice's cores (05 R116): core, class and state. -/
def ctxCounts (s : State) (sl ctx : Nat) : List (Nat × Nat × ExcState) :=
  (coresOf s sl).flatMap (fun n => (getCore s n).exc.filterMap (fun e => if e.1 / 8 = ctx then some (n, e.1 % 8, e.2) else none))

/-- The spawned teams of a context that wait for storage (02 R39). -/
def ctxBatches (s : State) (sl ctx : Nat) : List SpawnBatch := (getSlice s sl).batches.filter (fun b => b.bin.ctx == ctx)

/-- The image of a forced save (10 R244). -/
def imageOf (s : State) (sl ctx : Nat) : Image :=
  let os := s.ops.filterMap (fun o => if o.2.slice == sl && o.2.ctx == ctx && !o.2.dropped then some (savedOp o.2) else none)
  let x := getCtx s sl ctx
  { teams := savedTeams s sl ctx, ops := os, sets := (os.filterMap (namedSet s)).eraseDups, bins := ctxBins s sl ctx,
    batches := ctxBatches s sl ctx, exc := ctxCounts s sl ctx, cores := coresOf s sl, sparse := sparseHalves s os, grids := gridsOf s sl ctx, table := x.td, thr := x.thr, win := x.win, act := x.act, spawnt := x.spawnt }

/-- Cells of a set (06 R120). -/
def setCells (x : WeightSet) : Nat := x.macros.length * 128 * 128

/-- Bytes of an image after the sump, rounded up to 64 KiB (11 R439; log 51). -/
def imageBytes (i : Image) : Nat :=
  let warps := (i.teams.map (fun t => (t.slots.map (fun w => 4096 + warpBytes w.2.2)).sum)).sum
  let teams := (i.teams.map (fun t => 4096 + 65536 * t.team.accB)).sum
  let sets := (i.sets.map (fun x => setCells x.2.2 / 2 + x.2.2.scaleBytes)).sum
  let sum := 65536 + 4096 * i.grids.length + 16384 * ((i.bins.map (fun b => b.1)).eraseDups).length + warps + teams +
    512 * (i.ops.filter (fun o => !o.finished)).length + sets + 131072 * i.sparse.length
  (sum + 65535) / 65536 * 65536

/-- A context's teams, bins and counts leave a core; its bank context there is free again. -/
def clearCore (sl ctx : Nat) (s : State) (core : Nat) : State :=
  let s1 := (ctxTeams s core sl ctx).foldl (fun s t => removeTeam s core t.1) s
  let c := getCore s1 core
  putCore s1 core { c with bins := tkeep c.bins (fun _ b => b.ctx != ctx), exc := tkeep c.exc (fun k _ => k / 8 != ctx) }

/-- Everything that a context holds on cores and in engines gone. -/
def clearContext (s : State) (sl ctx : Nat) : State :=
  let mine := fun (id : Nat) => (findOp s id).any (fun o => o.slice == sl && o.ctx == ctx)
  let s1 := { s with engines := tmap s.engines (fun _ e => { e with passing := e.passing.filter (fun p => !mine p.op) })
                     ops := tkeep s.ops (fun _ o => !(o.slice == sl && o.ctx == ctx)) }
  let s2 := putSlice s1 sl { getSlice s1 sl with batches := (getSlice s1 sl).batches.filter (fun b => b.bin.ctx != ctx) }
  (coresOf s2 sl).foldl (clearCore sl ctx) s2

/-- A team whose warps have all exited and that has no operation left declines on its counters as it leaves (09 R215). -/
def declineExited (sl ctx : Nat) (s : State) (core : Nat) : State :=
  (ctxTeams s core sl ctx).foldl (fun s t =>
    if !(liveWarps s core t.1).isEmpty || teamOps s core t.1 || t.2.spawned then s
    else
      match tfind (getSlice s sl).grids t.2.grid with
      | none => s
      | some g => if g.exited.contains t.2.order then s
        else putGrid s sl t.2.grid { declineAll g t.2.order with exited := g.exited ++ [t.2.order] }) s

/-- The context saved (10 R244): its threads' retired stores have reached their homes, the image is in the save area, and nothing of the
context is left on cores and in engines. -/
def writeSave (s : State) (sl ctx : Nat) : Except TrErr State :=
  let s1 := modMarks (awayMark sl ctx) s
  let i := imageOf s1 sl ctx
  match writeArea (clearContext s1 sl ctx) sl ctx (imageBytes i) with
  | .error e => .error e
  | .ok s2 => .ok (stepDone (putCtx s2 sl ctx { getCtx s2 sl ctx with state := 5, quiesce := none, image := some i }) sl 1 ctx)

/-- A forced save that cannot be written (11 R263): the context stays stopped where it stands. -/
def failSave (s : State) (sl ctx : Nat) : State :=
  let s1 := modWarps (modOps s sl ctx suspendMatrix) sl ctx (fun w => { w with qpend := false })
  setSlstat (putCtx s1 sl ctx { getCtx s1 sl ctx with state := 3, quiesce := none }) sl 3

/-- The forced save (10 R244, 11 R263): with too small a save area, or one that a write of it cannot reach (log 124), the context stays stopped
where it stands. It waits while a port that a retired store or the image must reach does not answer (11 R258). -/
def forceSave (s : State) (sl ctx : Nat) : State :=
  let s0 := (coresOf s sl).foldl (declineExited sl ctx) s
  if (getCtx s0 sl ctx).saveSize.toNat < 32768 + imageBytes (imageOf s0 sl ctx) then failSave s sl ctx
  else
    match (drainCores (coresOf s0 sl) s0).bind (fun s1 => flushSlice s1 sl) with
    | none => s
    | some s1 =>
      match writeSave s1 sl ctx with
      | .ok s2 => s2
      | .error .waits => s
      | .error e => failSave (reportTr s sl ctx e) sl ctx

/-- A stop of the context is still in progress. -/
def stopRuns (x : Ctx) : Bool :=
  match x.stop with
  | none => false
  | some st => !st.closed

/-- QUIESCE_COMPLETE (10 R243, R244, R247). -/
def execQuiesceComplete (slice ctx : Nat) (s : State) : Out :=
  let x := getCtx s slice ctx
  match x.quiesce with
  | none => .next s
  | some q =>
    if s.powerLatch || x.state != 4 || stopRuns x || !enginesStand s slice ctx then .next s
    else if q.expired || x.stop.isSome || quiesceDone s slice ctx q then .next (forceSave s slice ctx)
    else .next s

/-- The arithmetic cycles of a quiesce budget (11 R260), after which QUIESCE_BUDGET_EXPIRE comes (log 1): 0 means 200,000. -/
def quiesceBudget (x : Slice) : Nat := if x.qbudget = 0 then 200000 else x.qbudget

/-- QUIESCE_BUDGET_EXPIRE (10 R242, R244): the save begins as soon as the engines stand at their boundaries. -/
def execQuiesceBudgetExpire (slice ctx : Nat) (s : State) : Out :=
  let x := getCtx s slice ctx
  match x.quiesce with
  | none => .next s
  | some q =>
    let s1 := putCtx s slice ctx { x with quiesce := some { q with expired := true } }
    if s.powerLatch || x.state != 4 then .next s
    else if stopRuns x || !enginesStand s slice ctx then .next s1
    else .next (forceSave s1 slice ctx)

/-- Bytes written by Olsan at an intermediate address, each through stage 2. -/
def olsanWrite (s : State) (sl ia : Nat) : List Byte → Except TrErr State
  | [] => .ok s
  | b :: bs =>
    match ringWrite s sl ia [b] with
    | .error e => .error e
    | .ok s1 => olsanWrite s1 sl (ia + 1) bs

/-- Bytes read by Olsan at an intermediate address, each through stage 2. -/
def olsanRead (s : State) (sl ia : Nat) : Nat → Except TrErr (List Byte × State)
  | 0 => .ok ([], s)
  | n + 1 =>
    match ringRead s sl ia 1 with
    | .error e => .error e
    | .ok (b, s1) =>
      match olsanRead s1 sl (ia + 1) n with
      | .error e => .error e
      | .ok (bs, s2) => .ok (b ++ bs, s2)

/-- A command that ends with a result, or fails and writes nothing (11 R264); while a port does not answer it runs on (`workCommand`). -/
def endCommand (s : State) (sl cmd ctx : Nat) (r : Except TrErr State) : State :=
  match r with
  | .ok s1 => stepDone (setCommand s1 sl cmd ctx 0) sl cmd ctx
  | .error .waits => setCommand s sl cmd ctx 1
  | .error (.poison tag) => setCommand (tellTr s sl (.poison tag)) sl cmd ctx 3
  | .error (.fail st k ia) => setCommand (tellTr s sl (.fail st k ia)) sl cmd ctx 3

/-- Something sealed under a migration key written at an intermediate address (11 R264, R265; log 17): its bytes stand for it. -/
def sealAt (s : State) (sl ia : Nat) (x : Sealed) : Except TrErr (Nat × State) :=
  let n := s.sealedData.length
  match olsanWrite { s with sealedData := tset s.sealedData n x } sl ia (Config.sealedBytes n) with
  | .error e => .error e
  | .ok s1 => .ok ((Config.sealedBytes n).length, s1)

/-- The lines of a save area that an image and the sump before it take (11 R263). -/
def savedLines (i : Image) : Nat := (32768 + imageBytes i) / 128

/-- The image of a saved context as an export takes it (10 R244), with the stop records of its sump, and each grid with its launch record
(log 76). -/
def exportImage (s : State) (sl ctx : Nat) (area : List Byte) : Image :=
  let x := getCtx s sl ctx
  let grid := fun (g : Nat × Grid) => (g.1, { g.2 with record := g.2.record.or (findHeld s sl g.2.mbox g.2.seq) })
  { x.image.getD {} with sump := area.take 32768, records := x.nextSump, lost := x.lostRec, grids := (gridsOf s sl ctx).map grid, table := x.td, thr := x.thr, win := x.win, act := x.act, spawnt := x.spawnt }

/-- Olsan's work for an EXPORT (11 R264, R265): it reads the save area, sump and image. -/
def workExport (s : State) (sl ctx : Nat) : State :=
  let y := getSlice s sl
  match y.migKey with
  | none => setCommand s sl 2 ctx 3
  | some k =>
    if k.srcPkg != s.pkgid || k.srcSlice != sl then setCommand s sl 2 ctx 3
    else
      let x := getCtx s sl ctx
      endCommand s sl 2 ctx (match linesRead sl x.saveBase.toNat (savedLines (x.image.getD {})) s with
        | .error e => .error e
        | .ok (area, s1) =>
          let e : Sealed := { key := k, pkg := s.pkgid, slice := sl, ctx := ctx, ia := 0, image := some (exportImage s sl ctx area), page := [] }
          match sealAt s1 sl y.expbase.toNat e with
          | .error e => .error e
          | .ok (_, s2) => .ok (putCtx s2 sl ctx { getCtx s2 sl ctx with state := 6 }))

/-- EXPORT (11 R264, R265). -/
def execExportCtx (slice ctx : Nat) (s : State) : Out :=
  whenOpen s (if (getCtx s slice ctx).state != 5 then refuseCommand s slice 2 ctx else .next (workExport s slice ctx))

/-- The 64 KiB pages that a command lists (11 R264). -/
def pageList (s : State) (sl : Nat) : Except TrErr (List Nat × State) :=
  let y := getSlice s sl
  let n := y.exparg.toNat % 2 ^ 32
  match olsanRead s sl y.expbase.toNat (8 * n) with
  | .error e => .error e
  | .ok (bs, s1) => .ok ((List.range n).map (fun i => bytesNat ((bs.drop (8 * i)).take 8)), s1)

/-- Pages exported one after another behind their list (11 R264). -/
def sealPages (sl ctx : Nat) (k : MigKey) : List Nat → Nat → State → Except TrErr State
  | [], _, s => .ok s
  | ia :: t, at_, s =>
    match olsanRead s sl ia 65536 with
    | .error e => .error e
    | .ok (bs, s1) =>
      match sealAt s1 sl at_ { key := k, pkg := s.pkgid, slice := sl, ctx := ctx, ia := ia, image := none,
                               page := byteTbl 0 bs } with
      | .error e => .error e
      | .ok (n, s2) => sealPages sl ctx k t (at_ + n) s2

/-- Olsan's work for a PAGEX (11 R264, R265). -/
def workPagex (s : State) (sl ctx : Nat) : State :=
  let y := getSlice s sl
  match y.migKey with
  | none => setCommand s sl 3 ctx 3
  | some k =>
    endCommand s sl 3 ctx (match pageList s sl with
      | .error e => .error e
      | .ok (ps, s1) => sealPages sl ctx k ps (y.expbase.toNat + 8 * ps.length) s1)

/-- PAGEX (11 R264, R265): from any state but absent. -/
def execPagex (slice ctx : Nat) (s : State) : Out :=
  whenOpen s (if (getCtx s slice ctx).state = 0 then refuseCommand s slice 3 ctx else .next (workPagex s slice ctx))

/-- What some bytes are, that another package has sealed under a key: none where their tag fails (11 R264; log 70). -/
opaque foreignSeal : MigKey → List Byte → Option Sealed

/-- The bytes at an intermediate address. -/
def bytesAt (s : State) (sl ia n : Nat) : Option (List Byte) :=
  match olsanRead s sl ia n with
  | .error _ => none
  | .ok (bs, _) => some bs

/-- A thing sealed by another package at an intermediate address, with its length (11 R264; log 70). -/
def openForeign (s : State) (sl ia : Nat) (k : MigKey) : Option (Nat × Sealed) :=
  (bytesAt s sl ia 64).bind (fun h => (bytesAt s sl ia (Config.foreignLength h)).bind (fun bs =>
    (foreignSeal k bs).map (fun e => (bs.length, e))))

/-- The sealed thing whose bytes stand at an intermediate address and whose key and source agree, with its length (11 R264): of this package,
or of another. -/
def openSealed (s : State) (sl ia : Nat) (k : MigKey) : Option (Nat × Sealed) :=
  let own := (s.sealedData.find? (fun e => e.2.key == k && bytesAt s sl ia (Config.sealedBytes e.1).length == some (Config.sealedBytes e.1))).map
    (fun e => ((Config.sealedBytes e.1).length, e.2))
  (own.or (openForeign s sl ia k)).filter (fun e => e.2.key == k && k.srcPkg == e.2.pkg && k.srcSlice == e.2.slice)

/-- A saved team under a new grid number and slice. -/
def rehomeTeam (sl ctx : Nat) (grid : Nat → Nat) (t : SavedTeam) : SavedTeam :=
  { t with team := { t.team with slice := sl, ctx := ctx, grid := grid t.team.grid }
           slots := t.slots.map (fun w => (w.1, w.2.1, { w.2.2 with slice := sl, ctx := ctx })) }

/-- A release mark under the importing slice's names (08 R179, R187): the context's own threads are those of the importing slice; others stay
behind, where the image comes from another package. -/
def rehomeMark (here : Bool) (sl0 ctx0 sl ctx : Nat) (m : RelMark) : RelMark :=
  if m.slice = sl0 ∧ m.ctx = ctx0 ∧ 128 ≤ m.core then { m with slice := sl, ctx := ctx }
  else if here then m
  else { m with slice := 16, core := 256 }

/-- The image under the importing slice's names (11 R264): its grids get new numbers there. -/
def rehome (sl ctx next : Nat) (i : Image) : Image :=
  let grid := fun (g : Nat) => next + (i.grids.findIdx (fun e => e.1 == g))
  { i with
    teams := i.teams.map (rehomeTeam sl ctx grid)
    ops := i.ops.map (fun o => { o with slice := sl, ctx := ctx, origin := { o.origin with slice := sl, ctx := ctx } })
    sets := i.sets.map (fun x => (x.1, x.2.1, { x.2.2 with slice := sl, ctx := ctx }))
    bins := i.bins.map (fun b => (b.1, { b.2 with ctx := ctx, grid := grid b.2.grid }))
    batches := i.batches.map (fun b => { b with bin := { b.bin with ctx := ctx, grid := grid b.bin.grid } })
    exc := []
    cores := []
    grids := i.grids.zipIdx.map (fun g => (next + g.2, { g.1.2 with ctx := ctx, mbox := 64, seq := 0 })) }

/-- A list of bytes in lines of 128. -/
def inLines (n : Nat) (bs : List Byte) : List (List Byte) := (List.range n).map (fun i => (List.range 128).map (fun j => bs.getD (128 * i + j) 0))

/-- An image put into the save area of the context that is made from it, stop records and all (10 R244, 11 R263, R264); or what keeps it from
being there, as too small an area does (log 124). -/
def placeImage (s : State) (sl ctx : Nat) (i : Image) : Except TrErr State :=
  let x := getCtx s sl ctx
  if x.saveSize.toNat < 128 * savedLines i then .error (.poison none)
  else
    match linesWrite sl x.saveBase.toNat (inLines 256 i.sump) s with
    | .error e => .error e
    | .ok s1 => writeArea s1 sl ctx (imageBytes i)

/-- A context made from an image (11 R263, R264): saved, with its grids on the slice. -/
def importImage (s : State) (sl ctx : Nat) (i : Image) : State :=
  let y := getSlice s sl
  let i1 := rehome sl ctx y.nextGrid i
  let x := getCtx s sl ctx
  let s1 := putSlice s sl { y with grids := i1.grids.foldl (fun t g => tset t g.1 g.2) y.grids, nextGrid := y.nextGrid + i1.grids.length }
  putCtx s1 sl ctx { x with state := 5, td := i1.table, thr := i1.thr, win := i1.win, act := i1.act, spawnt := i1.spawnt,
                            image := some i1, stop := none, nextSump := i1.records, lostRec := i1.lost, quiesce := none }

/-- The result of an IMPORT, which SLSTAT reads unless another command has been given since (11 R260, R264; log 70). -/
def importEnds (s : State) (sl ctx st : Nat) : State :=
  if (getSlice s sl).slcmd == BitVec.ofNat 64 (4 + ctx % 16 * 2 ^ 8) then setSlstat s sl st else s

/-- An IMPORT that fails leaves nothing (11 R264). -/
def importFails (s : State) (sl ctx st : Nat) : State := importEnds (putCtx s sl ctx { getCtx s sl ctx with state := 0 }) sl ctx st

/-- The context made from a sealed image (11 R264, R266); in state 7 still while a port of its save area does not answer. -/
def importSealed (s : State) (sl ctx : Nat) (e : Sealed) (i : Image) : State :=
  let mark := rehomeMark (e.pkg == s.pkgid) e.slice e.ctx sl ctx
  match placeImage s sl ctx i with
  | .error .waits => s
  | .error r => importFails (tellTr s sl r) sl ctx 3
  | .ok s1 =>
    let s2 := if e.pkg == s.pkgid then modMarks mark s1 else s1
    raiseEvent (importEnds (importImage s2 sl ctx (imageMarks mark i)) sl ctx 0) sl 8 ctx 0 0 0 4

/-- Olsan's work for an IMPORT (11 R264, R266): the context is made from the sealed image, under its own id, or the command fails and
leaves nothing; it waits in state 7 while the port of the buffer does not answer (log 70). -/
def workImport (s : State) (sl ctx : Nat) : State :=
  let y := getSlice s sl
  match y.migKey, olsanRead s sl y.expbase.toNat 1 with
  | none, _ => importFails s sl ctx 3
  | some _, .error .waits => s
  | some _, .error e => importFails (tellTr s sl e) sl ctx 3
  | some k, .ok _ =>
    match (openSealed s sl y.expbase.toNat k).bind (fun e => e.2.image.map (fun i => (e.2, i))) with
    | none => importFails s sl ctx 3
    | some (e, i) => if e.ctx != ctx then importFails s sl ctx 2 else importSealed s sl ctx e i

/-- The imports of a slice that wait go on (11 R264). -/
def workImports (s : State) (sl : Nat) : State :=
  ((getSlice s sl).ctxs.filter (fun c => c.2.state == 7)).foldl (fun s c => workImport s sl c.1) s

/-- IMPORT (11 R264, R266): importing, then saved. -/
def execImportCtx (slice ctx : Nat) (s : State) : Out :=
  whenOpen s
    (if (getCtx s slice ctx).state != 0 then refuseCommand s slice 4 ctx
     else .next (workImport (setCommand (putCtx s slice ctx { getCtx s slice ctx with state := 7 }) slice 4 ctx 1) slice ctx))

/-- The listed sealed pages found one after another behind their list (11 R264); none where one fails. -/
def openPages (s : State) (sl : Nat) (k : MigKey) : List Nat → Nat → Option (List (Nat × List Host.Cell))
  | [], _ => some []
  | ia :: t, at_ =>
    match openSealed s sl at_ k with
    | none => none
    | some (n, e) =>
      if e.image.isSome || e.ia != ia then none
      else
        match openPages s sl k t (at_ + n) with
        | none => none
        | some r => some ((ia, e.page) :: r)

/-- Pages written into the slice's memory (11 R264). -/
def writePages (sl : Nat) : List (Nat × List Host.Cell) → State → Except TrErr State
  | [], s => .ok s
  | (ia, bs) :: t, s =>
    match olsanWrite s sl ia (bs.map (fun e => e.2)) with
    | .error e => .error e
    | .ok s1 => writePages sl t s1

/-- The first byte behind a list of pages, where Olsan can have it. -/
def behindList (s : State) (sl n : Nat) : Except TrErr State :=
  match olsanRead s sl ((getSlice s sl).expbase.toNat + 8 * n) 1 with
  | .error e => .error e
  | .ok _ => .ok s

/-- Olsan's work for a PAGEI (11 R264). -/
def workPagei (s : State) (sl ctx : Nat) : State :=
  let y := getSlice s sl
  match y.migKey, pageList s sl with
  | some k, .ok (ps, s1) =>
    match openPages s1 sl k ps (y.expbase.toNat + 8 * ps.length), behindList s1 sl ps.length with
    | some r, _ => endCommand s sl 5 ctx (writePages sl r s1)
    | none, .error e => endCommand s sl 5 ctx (.error e)
    | none, .ok _ => setCommand s sl 5 ctx 3
  | some _, .error e => endCommand s sl 5 ctx (.error e)
  | none, _ => setCommand s sl 5 ctx 3

/-- PAGEI (11 R264): from importing or saved. -/
def execPagei (slice ctx : Nat) (s : State) : Out :=
  whenOpen s
    (let st := (getCtx s slice ctx).state
     if st != 5 && st != 7 then refuseCommand s slice 5 ctx else .next (workPagei s slice ctx))

/-- What a slice's commands waited for a port with goes on (11 R258, R264; log 70): its imports, and the last command. -/
def workCommand (s : State) (sl : Nat) : State :=
  let s1 := workImports s sl
  let y := getSlice s1 sl
  let ctx := bits y.slcmd.toNat 11 8
  if y.slstat != 1 then s1
  else
    match y.slcmd.toNat % 16 with
    | 2 => if (getCtx s1 sl ctx).state = 5 then workExport s1 sl ctx else s1
    | 3 => workPagex s1 sl ctx
    | 5 => workPagei s1 sl ctx
    | _ => s1

/-- A piece of a lane mask: lanes from lo, n of them, renumbered from 0 (02 R25). -/
def cutMask (m : LaneMask) (lo n : Nat) : LaneMask := (m >>> lo) &&& lanesBelow n

/-- A piece of a table keyed by number × 64 + lane (02 R25). -/
def cutKeys {α : Type} (t : Tbl α) (lo n : Nat) : Tbl α :=
  t.filterMap (fun e => if lo ≤ e.1 % 64 ∧ e.1 % 64 < lo + n then some (e.1 - lo, e.2) else none)

/-- A piece of a list of numbers × 64 + lane. -/
def cutNums (t : List Nat) (lo n : Nat) : List Nat :=
  t.filterMap (fun k => if lo ≤ k % 64 ∧ k % 64 < lo + n then some (k - lo) else none)

/-- The poisoned words of a piece's warp-table entry (03 R54, 02 R26): those of the whole warp, the predicate words that held its lanes,
and its lanes' join PCs and PCs. -/
def cutWords (t : List Nat) (lo n : Nat) : List Nat :=
  t.filterMap (fun k =>
    if k < 64 ∨ (128 ≤ k ∧ k < 1024) then some k
    else if k < 96 then if lo < 32 then some k else none
    else if k < 128 then if lo < 32 then none else some (k - 32)
    else
      let b := if k < 2048 then 1024 else 2048
      let l := (k - b) / 2 % 64
      if lo ≤ l ∧ l < lo + n then some (k - 2 * lo) else none)

/-- Piece k of a warp at a smaller grant (02 R25, R26; 10 R428): waits at rejoins whose other lanes have moved away are over (02 R32). -/
def splitWarp (regrant : Bool) (w : Warp) (g k : Nat) : Warp :=
  let lo := k * g
  let h := cutMask (w.handlers &&& ~~~w.exited) lo g
  let x := releaseJoins { w with
    warpix := w.warpix * (w.grant / g) + k
    grant := g
    present := cutMask w.present lo g
    v := w.v.map (fun e => (e.1, laneList (fun l => if l < g then laneGet e.2 (lo + l) else 0)))
    vPoison := w.vPoison.map (fun e => (e.1, cutMask e.2 lo g))
    d := cutKeys w.d lo g
    dPend := cutNums w.dPend lo g
    dPoison := cutNums w.dPoison lo g
    p := w.p.map (fun e => (e.1, cutMask e.2 lo g))
    wtPoison := cutWords w.wtPoison lo g
    j := cutKeys w.j lo g
    pcs := laneList (fun l => if l < g then pcOf w (lo + l) else 0)
    exited := cutMask w.exited lo g
    blocks := cutKeys w.blocks lo g
    placed := cutMask w.placed lo g
    relFence := cutKeys w.relFence lo g
    seen := w.seen.filterMap (fun e => if lo ≤ e.1 ∧ e.1 < lo + g then some (e.1 - lo, e.2) else none)
    trapLanes := if w.tm && h != 0 then cutMask w.trapLanes lo g else 0
    handlers := if w.tm then h else 0
    tm := w.tm && h != 0
    grantChanged := true
    regrant := w.regrant || regrant }
  { x with path := 0, pathRet := 0 }

/-- The warps that a saved warp resumes as (02 R24-R26): itself at its old grant, else those of its pieces that hold a thread that has
not exited. -/
def resumeWarps (regrant : Bool) (w : Warp) (g : Nat) : List Warp :=
  if w.grant ≤ g then [w]
  else ((List.range (w.grant / g)).map (splitWarp regrant w g)).filter (fun x => liveLanes x != 0)

/-- A held warp resumes with TM clear, and its lanes outside the handler run on (10 R243); a handler that was cut short goes on as one
outside a quiesce. -/
def unholdWarp (w : Warp) : Warp :=
  if w.held then { w with held := false, tm := false, handlers := 0, inQuiesce := false, path := 0, pathRet := 0 } else { w with inQuiesce := false }

/-- A team of translated code that no deterministic mode pins (12 R287, R289; log 122): it keeps its nominal grant on cores of any width, over
which the translation runs its lanes. -/
def translatedTeam (t : Team) : Bool := inWindow t.entry.toNat && !bitOf t.header 27

/-- What a saved team asks of a core at a grant (02 R21, R24; 12 R287). -/
def savedNeed (t : SavedTeam) (g : Nat) : Need :=
  let ws := t.slots.flatMap (fun w => resumeWarps false w.2.2 g)
  { grant := if translatedTeam t.team then 16 else g, warps := ws.length, bytes := (ws.map warpBytes).sum, tiles := t.team.accB, tagBase := t.team.tagBase,
    tagCount := t.team.tagCount }

/-- The grants at which a saved team may resume (02 R24; 12 R287): no larger than its own; the same in deterministic mode, and of translated
code. -/
def savedGrants (t : SavedTeam) : List Nat :=
  if bitOf t.team.header 27 || translatedTeam t.team then [t.team.grant] else [64, 32, 16].filter (fun g => decide (g ≤ t.team.grant))

/-- The core and grant for a saved team (02 R24, 09 R209). -/
def savedCore (s : State) (cores : List Nat) (ctx : Nat) (t : SavedTeam) : Option (Nat × Nat) :=
  (cores.filterMap (fun c => ((savedGrants t).find? (fun g => fitsOn s c ctx (savedNeed t g))).map (fun g => (c, g)))).foldl
    (fun r e => match r with
      | none => some e
      | some b => some (betterCore s b e)) none

/-- The generation that restored operations take in place of an old one (06 R146, R437). -/
def placedGen (i : Image) (me ws gen me' : Nat) : Option Nat :=
  (i.placed.find? (fun e => e.1 == me && e.2.1 == ws && e.2.2.1 == gen && e.2.2.2.1 == me')).map (fun e => e.2.2.2.2)

/-- A restored weight set put into an engine under a new generation (06 R146), or its slot left empty where nothing has room for it. -/
def restoreSet (s : State) (me ws : Nat) (x : WeightSet) : State × Option Nat :=
  let s1 := putSet (bumpGen s me ws) me ws none
  let gen := meGen s1 me ws
  match chooseBank s1 me ws x.macros.length with
  | none => (s1, none)
  | some b =>
    if 131072 < scalesUsed (getEngine s1 me) ws + x.scaleBytes then (s1, none)
    else (putSet s1 me ws (some { x with bank := b, gen := gen, macros := mapMacros s1 me ws b x.macros.length }), some gen)

/-- A generation that no slot has, for an operation whose set was not there to save or found no room: its mark below tells the two apart. -/
def noGen : Nat := 2 ^ 16

/-- The generation of a restored MXISSUE, the image that remembers it, and the engine's change (06 R146): the saved set is placed for the
first operation that names it. -/
def restoreGen (s : State) (i : Image) (me ws gen me' : Nat) : State × Image × Nat :=
  match placedGen i me ws gen me' with
  | some g => (s, i, g)
  | none =>
    match i.sets.find? (fun e => e.1 == me && e.2.1 == ws && e.2.2.gen == gen) with
    | none => (s, i, noGen)
    | some e =>
      let (s1, r) := restoreSet s me' ws e.2.2
      let g := r.getD (noGen + 1)
      (s1, { i with placed := i.placed ++ [(me, ws, gen, me', g)] }, g)

/-- A warp of a saved team as it resumes: its old slot and generation, its old core and first lane there, its grant, and its new slot and
generation. -/
structure Piece where
  old : Nat × Nat
  core : Nat
  lane : Nat
  grant : Nat
  new : Nat × Nat
  deriving DecidableEq, Repr

/-- Warps put into slots one after another, with the places they get. -/
def addWarps (core : Nat) : List (Piece × Warp) → State → State × List Piece
  | [], s => (s, [])
  | (p, w) :: t, s =>
    match tfree (getCore s core).warps 56 0 with
    | none => (s, [])
    | some slot =>
      let s1 := addWarp s core w
      let (s2, r) := addWarps core t s1
      (s2, { p with new := (slot, slotGen s1 core slot) } :: r)

/-- A release mark of a thread of a team that is back on a core (08 R179, R187): one that has exited has no slot there. -/
def backMark (sl ctx core : Nat) (t : SavedTeam) (ps : List Piece) (m : RelMark) : RelMark :=
  if m.slice = sl ∧ m.ctx = ctx ∧ m.core = t.core + 128 then
    match ps.find? (fun p => (m.slot, m.gen) == p.old && decide (p.lane ≤ m.lane ∧ m.lane < p.lane + p.grant)) with
    | some p => { m with core := core, slot := p.new.1, gen := p.new.2, lane := m.lane - p.lane }
    | none =>
      if (t.gone ++ t.slots.map (fun w => (w.1, w.2.1))).contains (m.slot, m.gen) then { m with core := core, slot := 64 } else m
  else m

/-- The warps and issuing lanes of an operation on its team's new core (02 R26). -/
def movedOp (mark : RelMark → RelMark) (ps : List Piece) (o : AsyncOp) : AsyncOp :=
  let mine := ps.filter (fun p => o.warps.contains p.old)
  { o with warps := mine.map (fun p => p.new)
           threads := mine.filterMap (fun p => (o.threads.find? (fun t => t.1 == p.old.1)).map (fun t => (p.new.1, cutMask t.2 p.lane p.grant)))
           mark := o.mark.map mark }

/-- A WLOAD of the saved context that a restored MXISSUE follows is not back yet (06 R437). -/
def loadComes (i : Image) (o : AsyncOp) (ws gen : Nat) : Bool :=
  i.ops.any (fun x => !x.finished && decide (x.accept < o.accept) && clusterOf x.core == clusterOf o.core && (match x.kind with
    | .wload ws' _ _ gen' => ws' == ws && gen' == gen
    | _ => false))

/-- The generation that a WLOAD takes on its new engine, for itself and for the MXISSUEs that follow it (06 R437): the first of them to
come back steps the slot's. -/
def loadGen (s : State) (i : Image) (me ws gen me' : Nat) : State × Image × Nat :=
  match placedGen i me ws gen me' with
  | some g => (s, i, g)
  | none =>
    let s1 := bumpGen s me' ws
    (s1, { i with placed := i.placed ++ [(me, ws, gen, me', meGen s1 me' ws)] }, meGen s1 me' ws)

/-- The MXISSUEs that waited for a WLOAD to come back go on (06 R437). -/
def wakeIssues (s : State) (sl ctx ws gen : Nat) (i : Image) (me : Nat) : State :=
  let gens := (i.placed.filter (fun e => e.1 == me && e.2.1 == ws && e.2.2.1 == gen)).map (fun e => e.2.2.2.2)
  modOps s sl ctx (fun o => match o.kind with
    | .mxissue w _ _ _ g => if blockWord w 2 = ws && gens.contains g then { o with awaits := false } else o
    | _ => o)

/-- A saved operation on its team's new core, in its saved place (06 R145, R146, R437; 07 R161): its number was set when the context
resumed. -/
def restoreOp (core bank team : Nat) (mark : RelMark → RelMark) (ps : List Piece) (r : State × Image) (o : AsyncOp) : State × Image :=
  let (s, i) := r
  let me := clusterOf o.core
  let me' := clusterOf core
  let o1 := { movedOp mark ps o with core := core, bank := bank, team := team, suspended := false, away := o.cls == 1 && !o.finished }
  match o.kind with
  | .wload ws td p gen =>
    if o.finished then (putOp s o.accept o1, i)
    else
      let (s1, i1, n) := loadGen s i me ws gen me'
      (wakeIssues (putOp s1 o.accept { o1 with kind := .wload ws td p n }) o.slice o.ctx ws gen i1 me, i1)
  | .mxissue w a g x gen =>
    if o.finished then (putOp s o.accept o1, i)
    else if loadComes i o (blockWord w 2) gen then
      let (s1, i1, n) := loadGen s i me (blockWord w 2) gen me'
      (putOp s1 o.accept { o1 with kind := .mxissue w a g x n, awaits := true }, i1)
    else
      let (s1, i1, n) := restoreGen s i me (blockWord w 2) gen me'
      let o2 := { o1 with kind := .mxissue w a g x n }
      if n = noGen + 1 then (finishOp (putOp s1 o.accept o2) o.accept o2 (some { err := 7, addr := 0 }), i1) else (putOp s1 o.accept o2, i1)
  | _ => (putOp s o.accept o1, i)

/-- A saved team's engine stands between passes, so that weight sets may be restored there (06 R117, R146). -/
def setsMayMove (s : State) (core : Nat) (im : Image) (t : SavedTeam) : Bool :=
  (getEngine s (clusterOf core)).passing.isNone || !im.ops.any (fun o => o.core == t.core && o.team == t.index && o.cls == 1 && !o.finished)

/-- The counts of a context that returns to the cores that it left (05 R116); on others, as after a merge or a split, each starts at zero. -/
def restoreCounts (s : State) (sl ctx : Nat) (im : Image) : State :=
  if im.cores == coresOf s sl then im.exc.foldl (fun s e => excPut s e.1 ctx e.2.1 e.2.2) s else s

/-- The counts of a context on a core where one of its teams resumes at a smaller grant start at zero (05 R116). -/
def zeroCounts (s : State) (ctx core : Nat) : State :=
  putCore s core { getCore s core with exc := tkeep (getCore s core).exc (fun k _ => k / 8 != ctx) }

/-- The bins of a grid whose teams resumed at a smaller grant take it (02 R39; log 52). -/
def regrantBins (grid old new : Nat) (bs : List (Nat × Bin)) : List (Nat × Bin) :=
  bs.map (fun b => if b.2.grid = grid ∧ b.2.grant = old then (b.1, { b.2 with grant := new }) else b)

/-- The pieces that a saved team's warps resume as, with the warps (02 R24-R26); their places come with `addWarps`. -/
def teamPieces (t : SavedTeam) (bank index g : Nat) : List (Piece × Warp) :=
  t.slots.flatMap (fun w => (resumeWarps (bitOf t.team.header 21) (unholdWarp w.2.2) g).map (fun x =>
    ({ old := (w.1, w.2.1), core := t.core, lane := if w.2.2.grant ≤ g then 0 else x.warpix % (w.2.2.grant / g) * g, grant := x.grant, new := (0, 0) },
     { x with bank := bank, team := index })))

/-- A saved team back on a core at a grant (02 R24-R27; 05 R116; 06 R146; 08 R179, R183; 10 R243, R244): its threads find no old copy in the
core's L1. -/
def restoreTeam (s : State) (sl ctx core g : Nat) (t : SavedTeam) : State :=
  let c := getCore s core
  let x := getCtx s sl ctx
  match bankFor c ctx, tfree c.teams 56 0, x.image with
  | some b, some i, some im =>
    let team := { t.team with bank := b, grant := g }
    let c1 := takeBank c b ctx
    let k := c1.bank b
    let half := match im.sparse.find? (fun e => e.1 == t.core && e.2.1 == t.team.bank) with
      | none => k.sparse
      | some e => e.2.2
    let k1 := { clearTags k (tagRange team) with sparse := half }
    let c2 := c1.putBank b { k1 with tagRdy := k1.tagRdy ||| t.tagRdy, tagErrs := t.tagErrs.foldl (fun e x => tset e x.1 x.2) k1.tagErrs }
    let (s1, ps) := addWarps core (teamPieces t b i g) (putCore s core { c2 with teams := tset c2.teams i team })
    let here := fun (o : AsyncOp) => o.core == t.core && o.team == t.index
    let im1 := { im with teams := im.teams.filter (fun x => !(x.core == t.core && x.index == t.index)), ops := im.ops.filter (fun o => !here o),
                         bins := if g < t.team.grant then regrantBins t.team.grid t.team.grant g im.bins else im.bins }
    let mark := backMark sl ctx core t ps
    let s2 := modMarks mark (if g < t.team.grant then zeroCounts s1 ctx core else s1)
    let (s3, im2) := (im.ops.filter here).foldl (restoreOp core b i mark ps) (s2, imageMarks mark im1)
    putCtx (acquireCopies s3 core sl 4) sl ctx { getCtx s3 sl ctx with image := some im2 }
  | _, _, _ => s

/-- The grant at which threads that were to be spawned run where their context resumes (02 R24, R39): the largest no larger than their own at
which some empty core of the slice holds their team. -/
def spawnGrant (s : State) (sl : Nat) (b : Bin) : Nat :=
  let cores := coresOf s sl
  let e := emptyCores s cores
  match tfind (getSlice s sl).grids b.grid with
  | none => b.grant
  | some g => ([64, 32, 16].find? (fun n =>
      decide (n ≤ b.grant) && cores.any (fun c => fitsOn e c b.ctx (spawnNeed { b with grant := n } g.kernel)))).getD b.grant

/-- A spawned team that waits for storage as it comes back with its context (02 R24, R39). -/
def restoreBatch (s : State) (sl : Nat) (b : SpawnBatch) : SpawnBatch := { b with bin := { b.bin with grant := spawnGrant s sl b.bin } }

/-- Full batches of a restored bin launched, and what is left of it (02 R39). -/
def splitBin (core : Nat) (b : Bin) : Nat → List SpawnThread → List SpawnBatch × List SpawnThread
  | 0, ts => ([], ts)
  | n + 1, ts =>
    if ts.length < b.grant then ([], ts)
    else
      let (r, rest) := splitBin core b n (ts.drop b.grant)
      ({ core := core, bin := { b with threads := ts.take b.grant } } :: r, rest)

/-- A saved spawn bin back on a core of the slice (02 R39): its own where the slice holds it; with no free bin there its threads launch
(log 69). Two bins that a smaller grant has made equal stay two, and a SPAWN uses the one with the lower number (log 52). -/
def restoreBin (sl : Nat) (s : State) (x : Nat × Bin) : State :=
  let core := if (coresOf s sl).contains x.1 then x.1 else (coresOf s sl).headD 0
  let b := { x.2 with grant := spawnGrant s sl { x.2 with threads := x.2.threads.take 1 } }
  let (bs, rest) := splitBin core b b.threads.length b.threads
  let launch := fun (s : State) (l : List SpawnBatch) => putSlice s sl { getSlice s sl with batches := (getSlice s sl).batches ++ l }
  let s1 := launch s bs
  if rest.isEmpty then s1
  else
    match tfree (getCore s1 core).bins 16 0 with
    | none => launch s1 [{ core := core, bin := { b with threads := rest } }]
    | some i => putCore s1 core { getCore s1 core with bins := tset (getCore s1 core).bins i { b with threads := rest } }

/-- Once every saved team is back, the saved bins are too, and the image is gone. -/
def finishRestore (s : State) (sl ctx : Nat) : State :=
  let x := getCtx s sl ctx
  match x.image with
  | none => s
  | some i =>
    if i.teams.isEmpty then
      let s1 := i.bins.foldl (restoreBin sl) (putCtx s sl ctx { x with image := none })
      putSlice s1 sl { getSlice s1 sl with batches := i.batches.map (restoreBatch s1 sl) ++ (getSlice s1 sl).batches }
    else s

/-- Every saved team can be placed on an empty core of the slice at some grant (11 R266); a deterministic one waits (02 R24). -/
def canResume (s : State) (sl ctx : Nat) (i : Image) : Bool :=
  let cores := coresOf s sl
  i.teams.all (fun t => bitOf t.team.header 27 || (savedCore (emptyCores s cores) cores ctx t).isSome)

/-- A context runs again (10 R232, R233; 11 R263): its stop is over and its sump free. -/
def resumedCtx (s : State) (sl ctx : Nat) (x : Ctx) : Ctx :=
  { x with state := if (gridsOf s sl ctx).isEmpty then 1 else 2, stop := none, nextSump := 0, lostRec := 0, quiesce := none,
           paused := 0 }

/-- A suspended matrix operation goes on, unless a swap keeps it out (06 R145). -/
def unsuspend (s : State) (o : AsyncOp) : AsyncOp := if tilesHere s o then returnOp o else o

/-- The operations of an image take new numbers in their saved order as the context resumes (06 R145, R437). -/
def numberOps (s : State) (i : Image) : State × Image :=
  ({ s with nextOp := s.nextOp + i.ops.length }, { i with ops := i.ops.zipIdx.map (fun o => { o.1 with accept := s.nextOp + o.2 }) })

/-- A context that an activation paused while it was quiescing runs again (11 R264, R280; log 125): its quiesce is over, and its traps with it. -/
def endQuiesce (s : State) (sl ctx : Nat) : State := modWarps s sl ctx (fun w => { w with qpend := false })

/-- RESUME (10 R232; 11 R264, R266). -/
def execResume (slice ctx : Nat) (s : State) : Out :=
  whenOpen s
    (let x := getCtx s slice ctx
     let from_ := if x.state = 8 then x.paused else x.state
     if from_ = 5 then
       let i := x.image.getD {}
       if !canResume s slice ctx i then .next (setCommand s slice 6 ctx 3)
       else
         let (s1, i1) := numberOps (restoreCounts s slice ctx i) i
         .next (setCommand (finishRestore (putCtx s1 slice ctx { resumedCtx s slice ctx x with image := some i1 }) slice ctx) slice 6 ctx 0)
     else if from_ = 3 ∨ (x.state = 8 ∧ (from_ = 1 ∨ from_ = 2 ∨ from_ = 4)) then
       let s0 := if from_ = 4 then endQuiesce s slice ctx else s
       let s1 := modWarps (modOps s0 slice ctx (unsuspend s0)) slice ctx
         (fun w => unholdWarp (discard { w with faulted := false, concerned := none }))
       .next (setCommand (putCtx s1 slice ctx (resumedCtx s slice ctx x)) slice 6 ctx 0)
     else refuseCommand s slice 6 ctx)

/-- A context's state scrubbed (11 R261, R264): absent, with its entry's own registers kept. -/
def scrubContext (s : State) (sl ctx : Nat) : State :=
  let x := getCtx s sl ctx
  let gs := gridsOf s sl ctx
  let s1 := gs.foldl (fun s g => orphanMessages s sl g.2) (clearContext s sl ctx)
  let y := getSlice s1 sl
  let s2 := releaseGrids (putSlice s1 sl { y with grids := tkeep y.grids (fun _ g => g.ctx != ctx), batches := y.batches.filter (fun b => b.bin.ctx != ctx) }) sl gs
  let s3 := { s2 with tlb := s2.tlb.filter (fun e => !(e.slice == sl && !e.stage2 && e.ctx == ctx)) }
  putCtx s3 sl ctx { saveBase := x.saveBase, saveSize := x.saveSize, s1root := x.s1root }

/-- DROP (11 R264): from stopped, saved or exported. -/
def execDropCtx (slice ctx : Nat) (s : State) : Out :=
  whenOpen s
    (let st := (getCtx s slice ctx).state
     if st != 3 && st != 5 && st != 6 then refuseCommand s slice 7 ctx
     else .next (setCommand (scrubContext s slice ctx) slice 7 ctx 0))

end Sys2Proof.Machine
end

