-- ==== Sys2Proof/Machine/Records.lean ====
section
/-!
DEFINITION. Mailboxes and their records (09 R195-R206, R210, R211, R219): enabling, fetching, the checks of a record, wait, signal and
message records, and completion.
-/
namespace Sys2Proof.Machine

/-- MAILBOX_ENABLE (09 R195): the write of the word at 0x08 with ENABLE set. Its other fields are writable while disabled. -/
def execMailboxEnable (slice mbox : Nat) (value : DWord) (s : State) : Out :=
  whenVf s slice
    (let b := getMbox s slice mbox
     let v := value.toNat
     let b1 := { b with defctx := bits v 47 32, prio := bits v 30 29, weight := bits v 23 16, layout := bits v 3 0 }
     if b.enable then .next s
     else if b1.size < 4 ∨ 16 < b1.size ∨ (b1.layout ≠ 2 ∧ b1.layout ≠ 3) ∨ b1.weight = 0 then
       .next (putMbox s slice mbox { b1 with err := true, errcode := 1 })
     else .next (putMbox s slice mbox { b1 with enable := true, halted := false }))

/-- Bytes of a ring slot (09 R196). -/
def slotBytes (b : Mailbox) : Nat := if b.layout = 2 then 64 else 128

/-- The slot of the next record (09 R196). -/
def nextSlot (b : Mailbox) : Nat := b.base * 4096 + b.expseq.toNat % 2 ^ b.size * slotBytes b

/-- A record's words. -/
def wordsOf : Nat → List Byte → List DWord
  | 0, _ => []
  | n + 1, bs => BitVec.ofNat 64 (bytesNat (bs.take 8)) :: wordsOf n (bs.drop 8)

/-- A word of a list of words. -/
def nthWord (w : List DWord) (i : Nat) : Nat := (w.getD i 0).toNat

/-- A grid shape word (09 R200). -/
def shapeOk (x : Nat) : Bool := x / 2 ^ 63 == 0 && decide ((bits x 20 0 + 1) * (bits x 41 21 + 1) * (bits x 62 42 + 1) ≤ 2 ^ 31)

/-- A wait condition's word (09 R201). -/
def conditionOk (x : Nat) : Bool := x / 2 ^ 7 == 0

/-- Word i of a layout 3 record obeys R199-R201. -/
def wordOk3 (w : List DWord) (i : Nat) : Bool :=
  let x := nthWord w i
  let kind := nthWord w 0 % 256
  let resident := bitOf (nthWord w 0) 16
  match i with
  | 0 => decide (kind ≤ 3) && bits x 15 8 == 3 && (!resident || kind == 0) && x / 2 ^ 24 == 0
  | 1 => x % 16 == 0
  | _ =>
    match kind with
    | 0 =>
      match i with
      | 3 => shapeOk x
      | 4 => x % 64 == 0
      | 5 => resident || x / 2 ^ 24 == 0
      | 14 => resident || x == 0
      | _ => true
    | 1 => if i = 14 then x == 0 else i % 2 == 1 || conditionOk x
    | 2 => if i = 2 then x % 8 == 0 else i == 3 || x == 0
    | _ => true

/-- Word i of a layout 2 record obeys R202. A signal's words 4 to 6, which no table names, may hold any value (log 127). -/
def wordOk2 (w : List DWord) (i : Nat) : Bool :=
  let x := nthWord w i
  let kind := nthWord w 0 % 256
  match i with
  | 0 => decide (kind ≤ 2) && bits x 15 8 == 2 && x / 2 ^ 23 == 0
  | _ =>
    match kind with
    | 0 => if i = 2 then shapeOk x else if i = 3 then x % 16 == 0 else true
    | 1 => i % 2 == 0 || conditionOk x
    | _ => if i = 1 then x % 8 == 0 else if i = 3 then x % 16 == 0 else true

/-- A layout 2 record as layout 3 (09 R202). The COMPL of a record of an illegal KIND is taken from word 3 (log 127). -/
def translate2to3 (w : List DWord) (defctx : Nat) : List DWord :=
  let x := nthWord w 0
  let at_ := fun i => w.getD i 0
  let head := BitVec.ofNat 64 (x % 256 + 3 * 256 + bits x 16 16 * 2 ^ 17 + bits x 22 17 * 2 ^ 18)
  match x % 256 with
  | 0 => [head, at_ 3, at_ 1, at_ 2, 0, BitVec.ofNat 64 defctx, at_ 4, at_ 5, at_ 6, 0, 0, 0, 0, 0, 0, at_ 7]
  | 1 => [head, 0, at_ 1, at_ 2, at_ 3, at_ 4, at_ 5, at_ 6, 0, 0, 0, 0, 0, 0, 0, at_ 7]
  | _ => [head, at_ 3, at_ 1, at_ 2, 0, 0, 0, 0, 0, 0, 0, 0, 0, 0, 0, at_ 7]

/-- An accepted record (09 R196, R202, R203): its words as layout 3, and its first offending word. -/
def acceptRecord (b : Mailbox) (w : List DWord) : Held :=
  if b.layout = 2 then
    { seq := b.expseq.toNat, words := translate2to3 w b.defctx, bad := (List.range 7).find? (fun i => !wordOk2 w i) }
  else { seq := b.expseq.toNat, words := w, bad := (List.range 15).find? (fun i => !wordOk3 w i) }

/-- Accepted records that are not complete in full (09 R196). -/
def heldCount (b : Mailbox) : Nat := (b.held.filter (fun h => !h.full)).length

/-- What a read of the next slot finds (09 R195, R197): a record, a seal that does not match, a wait for a port, or a fault. -/
inductive Slot where
  | record (h : Held) (s : State)
  | mismatch (s : State)
  | waits
  | fault (code : Nat) (e : TrErr)

/-- The next slot read: its seal, then its body (09 R197). -/
def readRingSlot (s : State) (sl m : Nat) : Slot :=
  let b := getMbox s sl m
  match ringRead s sl (nextSlot b) (slotBytes b) with
  | .error .waits => .waits
  | .error (.poison tag) => .fault 5 (.poison tag)
  | .error (.fail st k ia) => .fault 3 (.fail st k ia)
  | .ok (bs, s1) =>
    let w := wordsOf (slotBytes b / 8) bs
    if w.getD (slotBytes b / 8 - 1) 0 = b.expseq then .record (acceptRecord b w) s1 else .mismatch s1

/-- A fetch sequence as far as it goes now (09 R196, R197): records accepted until a seal does not match or 16 are held. k says what
a mismatch before the first acceptance does. -/
def fetchRun (sl m : Nat) (k : State → State) : Nat → Bool → State → State
  | 0, _, s => s
  | n + 1, got, s =>
    let b := getMbox s sl m
    if 16 ≤ heldCount b then putMbox s sl m { b with fetch := none, paused := true }
    else
      match readRingSlot s sl m with
      | .waits => putMbox s sl m { b with fetch := some (((b.fetch.map (fun f => f.1)).getD 0), got) }
      | .fault code e => mailboxFault (tellTr s sl e) sl m code
      | .mismatch s1 => if got then putMbox s1 sl m { getMbox s1 sl m with fetch := none } else k s1
      | .record h s1 =>
        let b1 := getMbox s1 sl m
        fetchRun sl m k n true (putMbox s1 sl m { b1 with held := b1.held ++ [h], expseq := b1.expseq + 1, fetch := none })

/-- The read after n earlier ones of a sequence does not match (09 R197): after the first, the sixty-fourth retry sets KAHEAD and ends the
sequence. -/
def missRetry (slice mbox n : Nat) (s : State) : State :=
  let b := getMbox s slice mbox
  putMbox s slice mbox (if 64 ≤ n then { b with fetch := none, kahead := true } else { b with fetch := some (n + 1, false) })

/-- KICK (09 R197; 11 R268): a disabled mailbox ignores it; one in a sequence starts its retries again; nothing is fetched while the
device may not work for the VF. -/
def execKick (slice mbox : Nat) (s : State) : Out :=
  let b := getMbox s slice mbox
  let s1 := putMbox s slice mbox { b with fetch := some (0, false), paused := false }
  whenVf s slice
    (if !b.enable then .next s
     else if !mayWork s slice then .next s1
     else .next (fetchRun slice mbox (missRetry slice mbox 0) 17 false s1))

/-- SEAL_RETRY (09 R197). -/
def execSealRetry (slice mbox : Nat) (s : State) : Out :=
  let b := getMbox s slice mbox
  match b.fetch with
  | none => .next s
  | some (n, got) => if !b.enable || !mayWork s slice then .next s else .next (fetchRun slice mbox (missRetry slice mbox n) 17 got s)

/-- FETCH_CONTINUE (09 R196): a paused sequence goes on once fewer than 16 records are held, without retries. -/
def execFetchContinue (slice mbox : Nat) (s : State) : Out :=
  let b := getMbox s slice mbox
  if !b.enable || !b.paused || !mayWork s slice || decide (16 ≤ heldCount b) then .next s
  else .next (fetchRun slice mbox (fun s => s) 17 true (putMbox s slice mbox { b with paused := false }))

/-- RECORD_START (09 R203, R205, R206): a record error completes the record with status 4 and its first offending word. -/
def execRecordStart (slice mbox : Nat) (s : State) : Out :=
  let b := getMbox s slice mbox
  match nextRecord b with
  | none => .next s
  | some h =>
    if b.halted || !mayWork s slice || !mayStart s slice h then .next s
    else
      match recordError s slice h with
      | some i => .next (modHeld s slice mbox h.seq (fun h => { h with started := true, done := true, status := 4, detail := i }))
      | none => .next (modHeld s slice mbox h.seq (fun h => { h with started := true }))

/-- MAILBOX_DISABLE (09 R203, R219). -/
def execMailboxDisable (slice mbox : Nat) (s : State) : Out := whenVf s slice (.next (clearEnable s slice mbox))

/-- Every valid condition of a wait record holds (09 R201). -/
def waitHolds (s : State) (sl : Nat) (h : Held) : Bool :=
  (List.range 6).all (fun c =>
    let x := recWord h (2 * c + 2)
    !bitOf x 6 || decide (recWord h (2 * c + 3) ≤ (getMbox s sl (x % 64)).lastdone.toNat))

/-- A wait record whose conditions hold completes (09 R201). -/
def settleWait (slice mbox : Nat) (s : State) : Out :=
  match activeRecord s slice mbox 1 with
  | none => .next s
  | some h => if waitHolds s slice h then .next (finishHeld s slice mbox h.seq 0 0) else .next s

/-- WAIT_RECORD (09 R201): at once if no condition is left. -/
def execWaitRecord (slice mbox : Nat) (s : State) : Out := whenClocked s (settleWait slice mbox s)

/-- WAIT_CONDITION_MET (09 R201). -/
def execWaitConditionMet (slice mbox : Nat) (s : State) : Out := whenClocked s (settleWait slice mbox s)

/-- SIGNAL_RECORD (09 R201, R205). -/
def execSignalRecord (slice mbox : Nat) (s : State) : Out :=
  whenClocked s
    (match activeRecord s slice mbox 2 with
     | none => .next s
     | some h =>
       match ringWrite s slice (recWord h 2) (natBytes 8 (recWord h 3)) with
       | .error .waits => .next s
       | .error e => .next (finishHeld (writeFault s slice mbox 0 e) slice mbox h.seq 8 0)
       | .ok s1 => .next (finishHeld s1 slice mbox h.seq 0 0))

/-- The bytes of a delivered message (09 R211). -/
def messageBytes (h : Held) : List Byte :=
  (List.range 13).flatMap (fun i => natBytes 8 (recWord h (i + 2))) ++ natBytes 8 h.seq ++ natBytes 16 0

/-- A message written into its grid's area (09 R211), through both stages of the grid's context (09 R205). -/
def writeMessage (s : State) (sl m : Nat) (g : Grid) (h : Held) : Except TrErr State :=
  let va := g.msgArea + BitVec.ofNat 64 (m * 2048 + (msgsOf g m).delivered % 16 * 128)
  match translate s (ringUnit sl) sl g.ctx va .write with
  | .error e => .error e
  | .ok (k, s1) => ringPut s1 sl k (messageBytes h)

/-- A message record delivered, while fewer than 8 wait unpopped (09 R211); one for a mailbox with no owner, or that was still held when the
grid that owned it exited, has no receiver. -/
def deliverMessage (slice mbox : Nat) (s : State) : Out :=
  match activeRecord s slice mbox 3 with
  | none => .next s
  | some h =>
    match if h.orphan then none else ownerOf (getSlice s slice) mbox with
    | none => .next (finishHeld s slice mbox h.seq 5 0)
    | some (id, g) =>
      let c := msgsOf g mbox
      if 8 ≤ c.waiting.length then .next s
      else
        match writeMessage s slice mbox g h with
        | .error .waits => .next s
        | .error e => .next (finishHeld (writeFault s slice mbox g.ctx e) slice mbox h.seq 8 0)
        | .ok s1 =>
          let g1 := { g with msgs := tset g.msgs mbox { c with delivered := c.delivered + 1, waiting := c.waiting ++ [h.seq] } }
          .next (modHeld (putGrid s1 slice id g1) slice mbox h.seq (fun h => { h with complete := true, delivered := true }))

/-- MESSAGE_RECORD (09 R211). -/
def execMessageRecord (slice mbox : Nat) (s : State) : Out := whenClocked s (deliverMessage slice mbox s)

/-- MESSAGE_DELIVERY (09 R211). -/
def execMessageDelivery (slice mbox : Nat) (s : State) : Out := whenClocked s (deliverMessage slice mbox s)

/-- RECORD_COMPLETE (09 R204, R206). -/
def execRecordComplete (slice mbox : Nat) (s : State) : Out :=
  whenClocked s
    (match (getMbox s slice mbox).held.find? (fun h => h.done) with
     | none => .next s
     | some h => .next ((completeHeld s slice mbox h).getD s))

end Sys2Proof.Machine
end

