-- ==== Sys2Proof/Machine/Placement.lean ====
section
/-!
DEFINITION. Launches, placement and the end of teams and grids (02 R19-R24, R39; 04 R89-R91; 09 R200, R204, R207-R215, R438; 12 R285;
13 R323).
-/
namespace Sys2Proof.Machine

/-- Deterministic mode (04 R89). -/
def Kernel.det (k : Kernel) : Bool := bitOf k.header 27

/-- The shape of a team cluster (04 R91, 09 R213): three zeros stand for 1 × 1 × 1. -/
def clusterShape (k : Kernel) : Nat × Nat × Nat := if k.cluster = (0, 0, 0) then (1, 1, 1) else k.cluster

/-- Teams of a team cluster. -/
def clusterSize (k : Kernel) : Nat := shapeThreads (clusterShape k)

/-- Teams of a grid. -/
def teamCount (g : Grid) : Nat := g.dims.1 * g.dims.2.1 * g.dims.2.2

/-- The fields of a kernel descriptor (04 R90), taken as one number. -/
def kernelOf (d : Nat) : Kernel :=
  { header := bits d 31 0, shape := (bits d 41 32 + 1, bits d 51 42 + 1, bits d 61 52 + 1), entry := BitVec.ofNat 64 (bits d 127 64),
    trapVa := BitVec.ofNat 64 (bits d 191 128), quiesceVa := BitVec.ofNat 64 (bits d 255 192), prod := bits d 258 256,
    pregs := 32 + 8 * bits d 268 264, cregs := 32 + 8 * bits d 273 269, pdeep := 32 * bits d 277 274, cdeep := 32 * bits d 281 278,
    accTiles := bits d 295 288, tagBase := bits d 301 296, tagCount := bits d 308 302,
    cluster := (bits d 335 320, bits d 351 336, bits d 367 352) }

/-- The reserved fields of a kernel descriptor are zero (04 R89, R90). -/
def kernelReserved (d : Nat) : Bool :=
  bits d 19 16 == 0 && bits d 63 62 == 0 && bits d 263 259 == 0 && bits d 287 282 == 0 && bits d 319 309 == 0 && bits d 383 368 == 0 &&
    bits d 447 384 == 0 && bits d 511 480 == 0

/-- The field checks of a launch (04 R91), with the revision check of 12 R285. TRAPVA and QUIESCEVA are taken as they stand, a multiple of 4 or
not, canonical or not, as no rule checks them (log 111). -/
def kernelOk (d : Nat) : Bool :=
  let k := kernelOf d
  let (cx, cy, cz) := k.cluster
  bits d 31 28 == 3 && kernelReserved d && bits d 15 8 == 3 && bits d 7 0 == 0 && decide (shapeThreads k.shape ≤ 1024) &&
    decide (k.prod ≤ 4 ∧ k.pregs ≤ 128 ∧ k.cregs ≤ 128 ∧ k.pdeep ≤ 256 ∧ k.cdeep ≤ 256 ∧ k.accTiles ≤ 128) &&
    decide (k.tagCount ≤ 64 ∧ k.tagBase + k.tagCount ≤ 64) && (bitOf d 20 == (k.quiesceVa != 0)) &&
    (if k.det then (cx == 0) == (cy == 0) && (cy == 0) == (cz == 0) else cx == 0 && cy == 0 && cz == 0) &&
    k.entry.toNat % 4 == 0 && canonical k.entry

/-- A kernel descriptor read through both stages of the context (04 R91). -/
def readKernel (s : State) (sl ctx : Nat) (va : DWord) : Except TrErr (Nat × State) :=
  match translate s (ringUnit sl) sl ctx va .read with
  | .error e => .error e
  | .ok (k, s1) =>
    if isPoisoned s1 k || reach s1 sl k == .refused then .error (.poison (consumed s1 k))
    else if reach s1 sl k == .waits then .error .waits
    else .ok (bytesNat (freshBytes s1 sl k 64), l2Read s1 sl k)

/-- The hardware clusters of a slice in ascending number (01 R7). -/
def hwClusters (s : State) (sl : Nat) : List Nat := (granulesOf s sl).flatMap (fun g => [2 * g, 2 * g + 1])

/-- The curve index within a layer (09 R213), from the most significant bit of the coordinates down. -/
def curveIn (n : Nat) : Nat → Nat → Nat → Nat → Nat
  | 0, _, _, d => d
  | b + 1, x, y, d =>
    let bx := (bitOf x b).toNat
    let by_ := (bitOf y b).toNat
    let d1 := d + 2 ^ b * 2 ^ b * ((3 * bx) ^^^ by_)
    if by_ = 0 then
      if bx = 1 then curveIn n b (n - 1 - y) (n - 1 - x) d1 else curveIn n b y x d1
    else curveIn n b x y d1

/-- The extents of the cluster grid (09 R213). -/
def clusterGrid (k : Kernel) (dims : Nat × Nat × Nat) : Nat × Nat × Nat :=
  let c := clusterShape k
  (dims.1 / c.1, dims.2.1 / c.2.1, dims.2.2 / c.2.2)

/-- The curve index of a team cluster (09 R213). -/
def curveIndex (q : Nat × Nat × Nat) (x y z : Nat) : Nat :=
  let m := ((List.range 22).find? (fun m => decide (max q.1 q.2.1 ≤ 2 ^ m))).getD 22
  z * (2 ^ m * 2 ^ m) + curveIn (2 ^ m) m x y 0

/-- The team clusters of a grid in curve order (09 R213). -/
def clusterOrder (q : Nat × Nat × Nat) : Tbl (Nat × Nat × Nat) :=
  (List.range (q.1 * q.2.1 * q.2.2)).foldl (fun t i => let c := coordOf q i; tset t (curveIndex q c.1 c.2.1 c.2.2) c) []

/-- The numbers of the teams of a team cluster in ascending order (09 R213). -/
def clusterTeams (k : Kernel) (dims c : Nat × Nat × Nat) : List Nat :=
  let z := clusterShape k
  (List.range (clusterSize k)).map (fun i =>
    let o := coordOf z i
    c.1 * z.1 + o.1 + dims.1 * (c.2.1 * z.2.1 + o.2.1 + dims.2.1 * (c.2.2 * z.2.2 + o.2.2)))

/-- The core that a team of a team cluster goes to (09 R213): team cluster n goes to hardware cluster n mod H, its teams to its
cores in turn. -/
def detCore (s : State) (sl n j : Nat) : Option Nat :=
  let hw := hwClusters s sl
  if hw.isEmpty then none else some (4 * hw.getD (n % hw.length) 0 + j % 4)

/-- Teams put on their cores one after another, all or none (09 R213). -/
def placeList (sl id : Nat) (g : Grid) (gs : List Nat) (n : Nat) : List (Nat × Nat) → State → Option State
  | [], s => some s
  | (j, number) :: t, s =>
    match detCore s sl n j with
    | none => none
    | some core =>
      match grantOn s core g.ctx g.kernel gs with
      | none => none
      | some w => placeList sl id g gs n t (placeTeam s sl id core w number (n * clusterSize g.kernel + j) g)

/-- Team cluster n of a grid, in curve order, placed (09 R213). -/
def placeCluster (s : State) (sl id : Nat) (g : Grid) (n : Nat) : Option State :=
  match (clusterOrder (clusterGrid g.kernel g.dims))[n]? with
  | none => none
  | some c =>
    placeList sl id g (grantsFor (requestFor s sl g.ctx g.kernel)) n
      ((clusterTeams g.kernel g.dims c.2).zipIdx.map (fun e => (e.2, e.1))) s

/-- A grid's next team on the core that the ringmaster chooses among some (09 R209). -/
def placeFree (s : State) (sl id : Nat) (g : Grid) (cores : List Nat) : Option State :=
  (chooseCore s cores g.ctx g.kernel (grantsFor (requestFor s sl g.ctx g.kernel))).map
    (fun c => placeTeam s sl id c.1 c.2 g.next g.next g)

/-- n further teams of a grid can all be placed (09 R210): each at the core and grant that R209 chooses, no other choice being tried (log 130). -/
def placeAll (sl id : Nat) (cores : List Nat) : Nat → Grid → State → Bool
  | 0, _, _ => true
  | n + 1, g, s =>
    match placeFree s sl id g cores with
    | none => false
    | some s1 => placeAll sl id cores n { g with next := g.next + 1 } s1

/-- The grid that a launch record starts (09 R200). -/
def gridOf (h : Held) (mbox : Nat) (k : Kernel) : Grid :=
  let x := recWord h 3
  let resident := bitOf (recWord h 0) 16
  { ctx := recCtx h, mbox := mbox, seq := h.seq, kernel := k, dims := (bits x 20 0 + 1, bits x 41 21 + 1, bits x 62 42 + 1),
    pool := h.words.getD 4 0, args := (h.words.drop 6).take 8, resident := resident, resMask := h.words.getD 14 0,
    msgArea := signed57 (BitVec.ofNat 64 (bits (recWord h 5) 63 24 * 2 ^ 17)), running := !resident }

/-- A deterministic grid's shape is a multiple of its cluster's (09 R213). -/
def dimsFit (g : Grid) : Bool :=
  let c := clusterShape g.kernel
  !g.kernel.det || (g.dims.1 % c.1 == 0 && g.dims.2.1 % c.2.1 == 0 && g.dims.2.2 % c.2.2 == 0)

/-- A launch has room on the slice once it holds no other team (02 R23; 09 R210, R213): the width tried last where it has none. -/
def placementError (s : State) (sl id : Nat) (g : Grid) : Option Nat :=
  let cores := coresOf s sl
  let e := emptyCores s cores
  let gs := grantsFor (requestFor s sl g.ctx g.kernel)
  let h := (hwClusters s sl).length
  let n := teamCount g / clusterSize g.kernel
  let one := cores.any (fun c => (grantOn e c g.ctx g.kernel gs).isSome)
  let det := !g.kernel.det || (List.range (min h n)).all (fun k => (placeCluster e sl id g k).isSome)
  let all := !g.resident || (if g.kernel.det then decide (n ≤ h) else placeAll sl id cores (teamCount g) g e)
  if one && det && all then none else some (gs.getLastD 16)

/-- A grid starts (09 R200, 11 R263): its context runs, with the record's spawn timer. -/
def startGrid (s : State) (sl mbox seq : Nat) (spawnt : Nat) (g : Grid) : State :=
  let y := getSlice s sl
  let s1 := putSlice s sl { y with grids := tset y.grids y.nextGrid g, nextGrid := y.nextGrid + 1 }
  let x := getCtx s1 sl g.ctx
  let s2 := putCtx s1 sl g.ctx { x with state := 2, spawnt := if spawnt = 0 then x.spawnt else spawnt }
  modHeld s2 sl mbox seq (fun h => { h with grid := some y.nextGrid })

/-- A launch whose descriptor has been read (02 R23; 04 R91; 09 R210, R213). -/
def launchWith (s : State) (sl mbox : Nat) (h : Held) (d : Nat) : State :=
  let g := gridOf h mbox (kernelOf d)
  if !kernelOk d || !dimsFit g then finishHeld s sl mbox h.seq 1 0
  else
    match placementError s sl (getSlice s sl).nextGrid g with
    | some w => finishHeld s sl mbox h.seq 2 w
    | none => startGrid s sl mbox h.seq (bits (recWord h 5) 23 16) g

/-- LAUNCH_RECORD (09 R200, R203, R204; 04 R91): its context and its mailboxes are looked at once more; nothing starts while the device may not
work for the VF (11 R268). -/
def execLaunchRecord (slice mbox : Nat) (s : State) : Out :=
  match activeRecord s slice mbox 0, (activeRecord s slice mbox 0).bind (recordError s slice) with
  | none, _ => .next s
  | some h, some i => if mayWork s slice then .next (finishHeld s slice mbox h.seq 4 i) else .next s
  | some h, none =>
    if !mayWork s slice || !mayStart s slice h then .next s
    else if recWord h 2 % 64 != 0 then .next (finishHeld s slice mbox h.seq 1 1)
    else
      match readKernel s slice (recCtx h) (h.words.getD 2 0) with
      | .ok (d, s1) =>
        if entryWaits s1 slice (recCtx h) (kernelOf d).entry then .next s else .next (launchWith s1 slice mbox h d)
      | .error .waits => .next s
      | .error (.poison tag) => .next (finishHeld (tellTag s slice tag) slice mbox h.seq 1 3)
      | .error (.fail st k ia) => .next (finishHeld (reportTr s slice (recCtx h) (.fail st k ia)) slice mbox h.seq 1 2)

/-- The context runs, with no stop line (10 R230, R242). -/
def ctxRuns (s : State) (sl ctx : Nat) : Bool := (getCtx s sl ctx).state == 2 && (getCtx s sl ctx).stop.isNone

/-- Teams of the context may be placed: it runs, and the device may start work for its VF (11 R268). -/
def ctxOpen (s : State) (sl ctx : Nat) : Bool := ctxRuns s sl ctx && mayWork s sl

/-- The priority of a grid (09 R207): its mailbox's. -/
def gridPrio (s : State) (sl : Nat) (g : Grid) : Nat := (getMbox s sl g.mbox).prio

/-- A grid has a team left to place. -/
def hasNext (g : Grid) : Bool := decide (g.next < teamCount g)

/-- A grid holds a reservation of every core (09 R207). -/
def holdsAll (g : Grid) : Bool := hasNext g && (g.reserved || (g.resident && !g.running))

/-- The order in which saved teams go back (09 R438). -/
def savedKey (t : SavedTeam) : Nat := t.team.grid * 2 ^ 33 + t.team.spawned.toNat * 2 ^ 32 + t.team.number

/-- The saved team that a context places next (09 R438). -/
def savedNext (s : State) (sl ctx : Nat) : Option SavedTeam :=
  if !ctxOpen s sl ctx then none
  else
    match (getCtx s sl ctx).image with
    | none => none
    | some i => i.teams.foldl (fun r t => match r with
      | none => some t
      | some b => if savedKey t < savedKey b then some t else r) none

/-- The priority of a saved team (09 R438): its grid's. -/
def savedPrio (s : State) (sl : Nat) (t : SavedTeam) : Nat :=
  match tfind (getSlice s sl).grids t.team.grid with
  | none => 0
  | some g => gridPrio s sl g

/-- The saved teams that the slice's contexts have still to place (09 R438). -/
def savedLeft (s : State) (sl : Nat) : List SavedTeam :=
  (getSlice s sl).ctxs.flatMap (fun c => if ctxOpen s sl c.1 then (c.2.image.map (fun i => i.teams)).getD [] else [])

/-- The saved teams that the slice's contexts place next. -/
def savedHeads (s : State) (sl : Nat) : List (Nat × SavedTeam) :=
  (getSlice s sl).ctxs.filterMap (fun c => (savedNext s sl c.1).map (fun t => (c.1, t)))

/-- A team cluster may be placed now (09 R214): the one before it on its hardware cluster has retired. -/
def clusterDue (s : State) (sl : Nat) (g : Grid) : Bool :=
  let h := (hwClusters s sl).length
  let k := g.next / clusterSize g.kernel
  h != 0 && decide (k < h ∨ k < g.retired + h)

/-- The cores that a waiting team cluster reserves (09 R207). -/
def detReserved (s : State) (sl : Nat) (e : Nat × Grid) : List Nat :=
  let n := e.2.next / clusterSize e.2.kernel
  if e.2.kernel.det && hasNext e.2 && ctxOpen s sl e.2.ctx && !(clusterDue s sl e.2 && (placeCluster s sl e.1 e.2 n).isSome) then
    (List.range 4).filterMap (detCore s sl n)
  else []

/-- A reservation of another grid stands in the way of a grid (09 R207): of two that hold one at the same priority the earlier launch
goes first. -/
def standsBefore (s : State) (sl : Nat) (holder : Nat × Grid) (p : Nat) (self : Option (Nat × Bool)) : Bool :=
  let q := gridPrio s sl holder.2
  match self with
  | none => decide (p < q)
  | some (id, holds) => holder.1 != id && (decide (p < q) || (q == p && (!holds || decide (holder.1 < id))))

/-- A reservation of all cores keeps a grid's teams from being placed (09 R207, R438). -/
def blockedGrid (s : State) (sl : Nat) (e : Nat × Grid) : Bool :=
  let p := gridPrio s sl e.2
  (savedLeft s sl).any (fun t => decide (p ≤ savedPrio s sl t)) ||
    (getSlice s sl).grids.any (fun h => holdsAll h.2 && ctxOpen s sl h.2.ctx && standsBefore s sl h p (some (e.1, holdsAll e.2)))

/-- The slice's cores on which no reservation keeps a team out (09 R207). -/
def freeCores (s : State) (sl p : Nat) (self : Option (Nat × Bool)) : List Nat :=
  let out := (getSlice s sl).grids.flatMap (fun h => if standsBefore s sl h p self then detReserved s sl h else [])
  (coresOf s sl).filter (fun c => !out.contains c)

/-- A grid's next teams placed, with the grid's account of them: how many, and the state. It waits while the port of the word that gives the
width (02 R22) does not answer (11 R258). -/
def tryGrid (s : State) (sl : Nat) (e : Nat × Grid) : Option (Nat × State) :=
  let g := e.2
  if !hasNext g || !ctxOpen s sl g.ctx || blockedGrid s sl e || entryWaits s sl g.ctx g.kernel.entry then none
  else
    let cores := freeCores s sl (gridPrio s sl g) (some (e.1, g.kernel.det))
    if g.kernel.det then
      let n := g.next / clusterSize g.kernel
      if !clusterDue s sl g || !((List.range 4).filterMap (detCore s sl n)).all (cores.contains ·) then none
      else (placeCluster s sl e.1 g n).map
        (fun s1 => (clusterSize g.kernel, putGrid s1 sl e.1 { g with next := g.next + clusterSize g.kernel, reserved := false }))
    else (placeFree s sl e.1 g cores).map (fun s1 => (1, putGrid s1 sl e.1 { g with next := g.next + 1, reserved := false }))

/-- The grids of a priority in the order of the turn (09 R207): mailboxes ascending from the one whose turn it is. -/
def turnOrder (s : State) (sl p : Nat) : List (Nat × Grid) :=
  let at_ := (tget (0, 0) (getSlice s sl).turns p).1
  (((getSlice s sl).grids.filter (fun g => gridPrio s sl g.2 == p)).foldl
    (fun t g => tset t ((g.2.mbox + 65 - at_) % 65 * 2 ^ 64 + g.1) g) ([] : Tbl (Nat × Grid))).map (fun e => e.2)

/-- The turn after a mailbox's grid has received teams (09 R207). -/
def noteTurn (s : State) (sl p mbox n : Nat) : State :=
  let y := getSlice s sl
  let (at_, used) := tget (0, 0) y.turns p
  let u := if at_ = mbox then used + n else n
  let t := if max 1 (getMbox s sl mbox).weight ≤ u then ((mbox + 1) % 65, 0) else (mbox, u)
  putSlice s sl { y with turns := tset y.turns p t }

/-- Saved teams of one team cluster back on the cores that 09 R213 gives it where the context resumes, all or none (09 R438). -/
def restoreList (sl ctx : Nat) (size : Nat) : List SavedTeam → State → Option State
  | [], s => some s
  | t :: rest, s =>
    match detCore s sl (t.team.order / size) (t.team.order % size) with
    | none => none
    | some core =>
      if fitsOn s core ctx (savedNeed t t.team.grant) && setsMayMove s core ((getCtx s sl ctx).image.getD {}) t then
        restoreList sl ctx size rest (restoreTeam s sl ctx core t.team.grant t)
      else none

/-- A context's next saved teams placed (02 R24; 09 R438). Team clusters that a slice with fewer hardware clusters gives one of them go back
together, where they fit (log 131). -/
def trySaved (s : State) (sl : Nat) (e : Nat × SavedTeam) : Option State :=
  let t := e.2
  let p := savedPrio s sl t
  if (getSlice s sl).grids.any (fun h => holdsAll h.2 && ctxOpen s sl h.2.ctx && standsBefore s sl h p none) then none
  else
    let cores := freeCores s sl p none
    let g := tfind (getSlice s sl).grids t.team.grid
    (if bitOf t.team.header 27 then
      match g, (getCtx s sl e.1).image with
      | some g, some i =>
        let size := clusterSize g.kernel
        let n := t.team.order / size
        if !((List.range 4).filterMap (detCore s sl n)).all (cores.contains ·) then none
        else
          let mine := i.teams.filter (fun x => x.team.grid == t.team.grid && x.team.order / size == n)
          let ordered := (mine.foldl (fun r x => tset r x.team.order x) ([] : Tbl SavedTeam)).map (fun x => x.2)
          restoreList sl e.1 size ordered s
      | some _, none => none
      | none, _ => none
    else (savedCore s (cores.filter (fun c => setsMayMove s c ((getCtx s sl e.1).image.getD {}) t)) e.1 t).map (fun c => restoreTeam s sl e.1 c.1 c.2 t)).map (fun s1 => finishRestore s1 sl e.1)

/-- The first spawned batch that fits placed (02 R39): it waits only for storage. -/
def trySpawn (s : State) (sl : Nat) : Option State :=
  (getSlice s sl).batches.zipIdx.findSome? (fun b =>
    match tfind (getSlice s sl).grids b.1.bin.grid with
    | none => none
    | some g =>
      if !ctxOpen s sl b.1.bin.ctx then none
      else
        (spawnCore s sl b.1 g.kernel).map (fun core =>
          let s1 := putSlice s sl { getSlice s sl with batches := (getSlice s sl).batches.eraseIdx b.2 }
          acquireCopies (putOnCore s1 core (spawnTeam sl b.1.bin g) (spawnWarps b.1.bin)) core sl 4))

/-- What is placed at one priority (09 R207, R438): saved teams, then the grids in turn. -/
def tryPrio (s : State) (sl p : Nat) : Option State :=
  match (savedHeads s sl).findSome? (fun e => if savedPrio s sl e.2 = p then trySaved s sl e else none) with
  | some s1 => some s1
  | none => (turnOrder s sl p).findSome? (fun e => (tryGrid s sl e).map (fun r => noteTurn r.2 sl p e.2.mbox r.1))

/-- TEAM_PLACEMENT (09 R207, R438; 02 R39): one placement, if one can be made. -/
def execTeamPlacement (slice : Nat) (s : State) : Out :=
  match trySpawn s slice with
  | some s1 => .next s1
  | none => .next (([3, 2, 1, 0].findSome? (fun p => tryPrio s slice p)).getD s)

/-- PLACEMENT_RESERVATION (09 R207). -/
def execPlacementReservation (slice grid : Nat) (s : State) : Out :=
  match tfind (getSlice s slice).grids grid with
  | none => .next s
  | some g => if hasNext g && ctxOpen s slice g.ctx then .next (putGrid s slice grid { g with reserved := true }) else .next s

/-- A grid's outcome goes to its launch record, in its mailbox or as an import brought it; none while a port does not answer. -/
def finishGrid (s : State) (sl : Nat) (g : Grid) (status detail : Nat) : Option State :=
  match g.record with
  | some h => postMoved s sl h status detail (status != 6)
  | none => some (finishHeld s sl g.mbox g.seq status detail)

/-- RESIDENT_GRID_START (09 R210). -/
def execResidentGridStart (slice grid : Nat) (s : State) : Out :=
  match tfind (getSlice s slice).grids grid with
  | none => .next s
  | some g =>
    if g.running || hasNext g || !ctxOpen s slice g.ctx then .next s
    else .next ((finishGrid (putGrid s slice grid { g with running := true }) slice g 6 0).getD s)

/-- TEAM_EXIT (13 R323; 09 R214, R215): a deterministic team keeps its core's resources until its team cluster retires. -/
def execTeamExit (core team : Nat) (s : State) : Out :=
  match tfind (getCore s core).teams team with
  | none => .next s
  | some t =>
    let x := getCtx s t.slice t.ctx
    if s.powerLatch || !(liveWarps s core team).isEmpty || teamOps s core team || x.stop.isSome || (x.state != 2 && x.state != 4) then .next s
    else
      match t.spawned, tfind (getSlice s t.slice).grids t.grid with
      | false, some g =>
        if g.exited.contains t.order then .next s
        else
          let s1 := putGrid s t.slice t.grid { declineAll g t.order with exited := g.exited ++ [t.order] }
          .next (if g.kernel.det then s1 else removeTeam s1 core team)
      | _, _ => .next (removeTeam s core team)

/-- A team of a grid is on a core. -/
def teamsLeft (s : State) (sl grid : Nat) : Bool :=
  (coresOf s sl).any (fun n => (getCore s n).teams.any (fun t => t.2.slice == sl && t.2.grid == grid))

/-- Saved teams, bins or spawned batches of a grid are left. -/
def spawnsLeft (s : State) (sl ctx grid : Nat) : Bool :=
  (coresOf s sl).any (fun n => (getCore s n).bins.any (fun b => b.2.ctx == ctx && b.2.grid == grid)) ||
    (getSlice s sl).batches.any (fun b => b.bin.grid == grid) || (getCtx s sl ctx).image.isSome

/-- A grid ends (09 R204, R211; 11 R263); none while a port does not answer. -/
def endGrid (s : State) (sl grid : Nat) (g : Grid) : Option State :=
  let y := getSlice s sl
  let s1 := orphanMessages (putSlice s sl { y with grids := tdel y.grids grid }) sl g
  (finishGrid s1 sl g (if g.lost = 0 then 0 else 7) g.lost).map (fun s2 => settleCtx s2 sl g.ctx)

/-- Grids of the context may complete (09 R204; 10 R243): it runs or is quiescing, with no stop line. -/
def ctxAlive (s : State) (sl ctx : Nat) : Bool :=
  let x := getCtx s sl ctx
  (x.state == 2 || x.state == 4) && x.stop.isNone

/-- The status 6 of a resident grid is still to be written (09 R210). -/
def statusPending (s : State) (sl : Nat) (g : Grid) : Bool := (findHeld s sl g.mbox g.seq).any (fun h => h.done)

/-- GRID_COMPLETE (09 R204, R210; 03 R51): after the last team, its spawned threads and its stores; a deferred error is recorded first. -/
def execGridComplete (slice grid : Nat) (s : State) : Out :=
  match tfind (getSlice s slice).grids grid with
  | none => .next s
  | some g =>
    if s.powerLatch || hasNext g || !g.running || teamsLeft s slice grid || spawnsLeft s slice g.ctx grid || !ctxAlive s slice g.ctx ||
        statusPending s slice g then .next s
    else
      match (drainCores (coresOf s slice) s).bind (fun s1 => flushSlice s1 slice) with
      | none => .next s
      | some s1 =>
        if s1.deferred.any (fun d => d.slice == slice && d.ctx == g.ctx) then .next s1 else .next ((endGrid s1 slice grid g).getD s)

/-- CLUSTER_RETIRE (09 R214): the next team cluster in curve order, once its teams have all exited. -/
def execClusterRetire (slice grid : Nat) (s : State) : Out :=
  match tfind (getSlice s slice).grids grid with
  | none => .next s
  | some g =>
    let size := clusterSize g.kernel
    let mine := fun (o : Nat) => decide (o / size = g.retired)
    if s.powerLatch || !g.kernel.det || g.next ≤ g.retired * size || !(List.range size).all (fun j => g.exited.contains (g.retired * size + j)) then .next s
    else
      let s1 := putGrid s slice grid { g with retired := g.retired + 1 }
      .next ((coresOf s1 slice).foldl (fun s n => ((getCore s n).teams.filter
        (fun t => t.2.slice == slice && t.2.grid == grid && mine t.2.order)).foldl (fun s t => removeTeam s n t.1) s) s1)

end Sys2Proof.Machine
end

