-- ==== Sys2Proof/Machine/Contexts.lean ====
section
/-!
DEFINITION. Slice resets (11 R269, R270), the context table (11 R261), invalidations (07 R171) and the event queue's registers (11 R256).
-/
namespace Sys2Proof.Machine

/-- A memory key lies in a granule's stack (07 R168). -/
def inStack (g k : Nat) : Bool := decide (k / 2 ^ 36 = g)

/-- A granule's cores, matrix engines, LLC and stack scrubbed, and every copy of a line of the stack gone (11 R270): nothing of its former
owner is left. -/
def scrubGranule (s : State) (g : Nat) : State :=
  { s with
    cores := tkeep s.cores (fun n _ => granuleOf n != g)
    engines := tkeep s.engines (fun n _ => n / 2 != g)
    ops := tkeep s.ops (fun _ o => granuleOf o.core != g)
    mem := s.mem.filter (fun e => !inStack g e.1)
    poison := tkeep s.poison (fun k _ => !inStack g k)
    marks := tkeep s.marks (fun k _ => !inStack g k)
    badTags := s.badTags.filter (fun k => !inStack g k)
    l2 := tkeep s.l2 (fun k _ => !inStack g k)
    llc := tkeep s.llc (fun k _ => !inStack g k)
    wbErr := s.wbErr.filter (fun k => !inStack g k) }

/-- Every translation of a slice gone, that of the code-world window with them. -/
def dropTlbs (s : State) (sl : Nat) : State := dropWindowTlbs { s with tlb := s.tlb.filter (fun e => e.slice != sl) } sl

/-- Everything that a slice's ways hold gone (11 R269). -/
def dropWays (s : State) (sl : Nat) : State := { s with l2 := tkeep s.l2 (fun k _ => k % 128 != sl) }

/-- What a slice reset leaves of a slice's registers and tables (11 R268, R269, R279): contexts absent, mailboxes, routing entries and the
collective group table at reset, the TDI in ERROR. -/
def resetSliceRegs (gen : Nat) (x : Slice) : Slice :=
  { x with tdi := .error, everLocked := false, measured := false, resets := x.resets + 1, scrubGen := gen, routing := [], groups := [],
           members := [], mboxes := [], grids := [], turns := [], batches := [], ctxs := [], msixWaiting := [], s1inv := none,
           xlreq := none, xlstat := if x.xlstat = 1 then 0 else x.xlstat }

/-- A slice reset (11 R269): vector 63 is raised once. -/
def resetSlice (s : State) (sl : Nat) : State :=
  let s1 := (granulesOf s sl).foldl scrubGranule s
  let s2 := hideEntries (dropTlbs (dropWays s1 sl) sl) sl
  raiseEvent (putSlice s2 sl (resetSliceRegs s.layGen (getSlice s2 sl))) sl 0 0 0 0 0 0

/-- RESET (11 R264, R269): SLSTAT reads 0 once vector 63 is raised. -/
def execSliceReset (slice : Nat) (s : State) : Out :=
  whenOpen s (if !vfEnabled s slice then .next s else .next (setCommand (resetSlice s slice) slice 8 0 0))

/-- FLR_VF (11 R255, R269, R282): a command that was running ends as failed. -/
def execFlrVf (slice : Nat) (s : State) : Out :=
  whenVf s slice (.next (setSlstat (resetSlice s slice) slice (if (getSlice s slice).slstat = 1 then 3 else (getSlice s slice).slstat)))

/-- FLR_PF0 (11 R255): the PF0 function state of a port is its own error reports and its waiting message; those of the port's VFs stay. -/
def execFlrPf0 (port : Port) (s : State) : Out :=
  whenOpen s (.next { s with aer := s.aer.filter (fun e => e.port != some port || e.slice.isSome), msix0Waiting := s.msix0Waiting.filter (· != port) })

/-- S2_INVALIDATION (11 R260): BUSY until it has completed. -/
def execS2Invalidation (slice : Nat) (s : State) : Out := whenOpen s (.next (putSlice s slice { getSlice s slice with s2busy := true }))

/-- S1_INVALIDATION (11 R261): it starts with GO, for the context named; while one is in progress the write is ignored (log 93). -/
def execS1Invalidation (slice : Nat) (value : DWord) (s : State) : Out :=
  let c := bits value.toNat 19 16
  whenVf s slice
    (if (getSlice s slice).s1inv.isSome then .next s
     else .next (putSlice s slice { getSlice s slice with s1sel := c, s1inv := if value.getLsbD 0 then some c else none }))

/-- INVALIDATION_COMPLETE (07 R171): every entry that it covers is gone. -/
def execInvalidationComplete (slice : Nat) (stage2 : Bool) (s : State) : Out :=
  let x := getSlice s slice
  if s.powerLatch then .next s
  else if stage2 then
    if !x.s2busy then .next s
    else .next (putSlice { s with tlb := s.tlb.filter (fun e => !(e.slice == slice && e.stage2)) } slice { x with s2busy := false })
  else
    match x.s1inv with
    | none => .next s
    | some c =>
      .next (putSlice { s with tlb := s.tlb.filter (fun e => !(e.slice == slice && !e.stage2 && e.ctx == c)) } slice { x with s1inv := none })

/-- CONTEXT_CREATE (11 R261, R263): VALID written 1 in state absent; its area's registers keep their values. -/
def execContextCreate (slice ctx : Nat) (s : State) : Out :=
  let x := getCtx s slice ctx
  whenVf s slice
    (if x.state != 0 || 16 ≤ ctx then .next s
     else .next (putCtx s slice ctx { saveBase := x.saveBase, saveSize := x.saveSize, s1root := x.s1root, state := 1 }))

/-- CONTEXT_REMOVE (11 R261): VALID written 0 in state idle or stopped. -/
def execContextRemove (slice ctx : Nat) (s : State) : Out :=
  let x := getCtx s slice ctx
  whenVf s slice (if x.state != 1 && x.state != 3 then .next s else .next (scrubContext s slice ctx))

/-- EVTAIL_WRITE (11 R256): a value above EVHEAD, or more than 64 below it, is ignored. -/
def execEvtailWrite (slice : Nat) (value : DWord) (s : State) : Out :=
  let x := getSlice s slice
  whenVf s slice (if 64 < (x.evhead - value).toNat then .next s else .next (putSlice s slice { x with evtail := value }))

/-- EVSTAT_WRITE (11 R256): bits written 1 clear; bit 9 acknowledges the DEFORIG record shown and sets again while another is held. -/
def execEvstatWrite (slice : Nat) (value : DWord) (s : State) : Out :=
  let x := getSlice s slice
  let d := if value.getLsbD 9 then x.deforig.drop 1 else x.deforig
  let stat := x.evstat &&& ~~~(BitVec.ofNat 16 value.toNat)
  whenVf s slice (.next (putSlice s slice { x with deforig := d, evstat := if d.isEmpty then stat else stat ||| 0x200 }))

end Sys2Proof.Machine
end

