-- ==== Sys2Proof/Machine/Keccak.lean ====
section
/-!
DEFINITION. SHAKE256 with a 512-bit output (11 R253; 12 R283, R290), as FIPS 202 defines it (log 17): a sponge of rate 136 bytes over
Keccak-f[1600]. A state is 25 lanes, lane x + 5y, of 64 bits.
-/
namespace Sys2Proof.Machine

/-- The lane of a sponge's state. -/
def lane (a : List DWord) (x y : Nat) : DWord := a.getD (x % 5 + 5 * (y % 5)) 0

/-- A state by its lanes. -/
def sponge (f : Nat → Nat → DWord) : List DWord := (List.range 25).map (fun i => f (i % 5) (i / 5))

/-- The walk over 24 lanes that numbers their rotations, from lane (1, 0): the place of step n as x + 5y. -/
def rhoPlace : Nat → Nat
  | 0 => 1
  | n + 1 => let i := rhoPlace n; i / 5 + 5 * ((2 * (i % 5) + 3 * (i / 5)) % 5)

/-- The left rotation of lane x + 5y: step n of the walk turns by the triangular number of n + 1; lane (0, 0) stays. -/
def rotation (i : Nat) : Nat :=
  match (List.range 24).find? (fun n => rhoPlace n == i) with
  | none => 0
  | some n => (n + 1) * (n + 2) / 2 % 64

/-- The register of eight bits whose lowest bits make the round constants, after n shifts. -/
def rcRegister : Nat → BitVec 8
  | 0 => 1
  | n + 1 => let r := rcRegister n; (r <<< 1) ^^^ (if r.getLsbD 7 then 0x71 else 0)

/-- The constant of a round: seven of the register's bits at the places 2^j - 1. -/
def roundConstant (i : Nat) : DWord :=
  (List.range 7).foldl (fun v j => if (rcRegister (7 * i + j)).getLsbD 0 then v ||| BitVec.ofNat 64 (2 ^ (2 ^ j - 1)) else v) 0

/-- The parity of a column of lanes. -/
def column (a : List DWord) (x : Nat) : DWord := (List.range 5).foldl (fun r y => r ^^^ lane a x y) 0

/-- One round: theta, rho and pi, chi, iota. -/
def keccakRound (a : List DWord) (rc : DWord) : List DWord :=
  let c := (List.range 5).map (column a)
  let t := sponge (fun x y => lane a x y ^^^ c.getD ((x + 4) % 5) 0 ^^^ (c.getD ((x + 1) % 5) 0).rotateLeft 1)
  let b := sponge (fun x y => (lane t (x + 3 * y) x).rotateLeft (rotation ((x + 3 * y) % 5 + 5 * x)))
  let r := sponge (fun x y => lane b x y ^^^ (~~~(lane b (x + 1) y) &&& lane b (x + 2) y))
  setAt r 0 (r.getD 0 0 ^^^ rc)

/-- The permutation. -/
def keccakF (a : List DWord) : List DWord := (List.range 24).foldl (fun b i => keccakRound b (roundConstant i)) a

/-- The 17 lanes of a block of 136 bytes. -/
def rateLanes (bs : List Byte) : List DWord := (List.range 17).map (fun i => BitVec.ofNat 64 (bytesNat ((bs.drop (8 * i)).take 8)))

/-- One block absorbed. -/
def absorbBlock (a : List DWord) (bs : List Byte) : List DWord :=
  let ls := rateLanes bs
  keccakF ((List.range 25).map (fun i => a.getD i 0 ^^^ ls.getD i 0))

/-- Blocks absorbed in order. -/
def absorb : Nat → List DWord → List Byte → List DWord
  | 0, a, _ => a
  | n + 1, a, bs => absorb n (absorbBlock a (bs.take 136)) (bs.drop 136)

/-- A message with SHAKE's suffix, padded to whole blocks. -/
def shakePad (bs : List Byte) : List Byte :=
  let n := 136 - bs.length % 136
  if n = 1 then bs ++ [0x9F] else bs ++ [0x1F] ++ List.replicate (n - 2) 0 ++ [0x80]

/-- SHAKE256 of some bytes, 512 bits of output as one number, byte 0 the least significant. -/
def shake256 (bs : List Byte) : Nat :=
  let a := absorb (bs.length / 136 + 1) (List.replicate 25 0) (shakePad bs)
  (List.range 8).foldr (fun i r => (a.getD i 0).toNat + 2 ^ 64 * r) 0

end Sys2Proof.Machine
end

