-- ==== Sys2Proof/Machine/Layout.lean ====
section
/-!
DEFINITION. The layout semaphore and the partition layout (11 R248-R254), and the module's own resets (01 R15-R17).
-/
namespace Sys2Proof.Machine

/-- A port holds the semaphore (11 R249). -/
def holds (s : State) (p : Port) : Bool := s.laysemHeld && s.laysemPort == p

/-- LAYSEM as it reads (11 R249). -/
def laysemWord (s : State) : DWord := BitVec.ofNat 64 (s.laysemHeld.toNat * 2 ^ 63 + portIx s.laysemPort * 2 ^ 60 + s.laysemToken)

/-- The next token: a 32-bit count that skips 0 (11 R249). -/
def nextToken (t : Nat) : Nat := if (t + 1) % 2 ^ 32 = 0 then 1 else (t + 1) % 2 ^ 32

/-- The semaphore taken by a port (11 R249). -/
def takeSem (s : State) (p : Port) : State :=
  { s with laysemHeld := true, laysemPort := p, laysemToken := nextToken s.tokenCtr, tokenCtr := nextToken s.tokenCtr }

/-- The holding port's link has been down for SEMTAKE Olsan cycles (11 R249), seen at a read (log 2): once it has, it stays so until
the link returns. -/
def lookAtLink (s : State) : State :=
  let i := portIx s.laysemPort
  if portUp s s.laysemPort then s
  else { s with linkLong := setAt s.linkLong i (s.linkLong.getD i false || decide (s.semtake ≤ Config.downFor s.fresh)), fresh := s.fresh + 1 }

/-- LAYSEM_READ (11 R249). -/
def execLaysemRead (port : Port) (s : State) : Out :=
  if s.powerLatch then .next s
  else
    let s1 := if s.laysemHeld && s.laysemPort != port then lookAtLink s else s
    let s2 := if !s.laysemHeld || (s.laysemPort != port && s1.linkLong.getD (portIx s.laysemPort) false) then takeSem s1 port else s1
    .next { s2 with lastRead := laysemWord s2 }

/-- LAYSEM_WRITE (11 R249). -/
def execLaysemWrite (port : Port) (value : DWord) (s : State) : Out :=
  if holds s port && bits value.toNat 31 0 == s.laysemToken && !s.powerLatch then
    .next { s with laysemHeld := false, laysemPort := .a, laysemToken := 0 }
  else .next s

/-- LAYSTAT's outcome fields set (11 R250). -/
def setLayout (s : State) (phase result bad : Nat) : State := { s with layPhase := phase, layResult := result, layBad := bad }

/-- A write to LAYCMD is refused (11 R250), its command apart. -/
def layRefused (s : State) (port : Port) (value : DWord) : Bool :=
  !holds s port || value.toNat / 2 ^ 32 != s.laysemToken || bits value.toNat 31 4 != 0

/-- A layout command as the holder gives it, or refused (11 R250); a word that carries another command is another event. -/
def layCommand (s : State) (port : Port) (value : DWord) (cmd : Nat) (k : Out) : Out :=
  whenOpen s
    (if value.toNat % 16 != cmd then .next s
     else if layRefused s port value then .next (setLayout s s.layPhase 6 0)
     else k)

/-- The staged bytes (11 R248, R251): the granule map and the slice configurations. -/
def stagedBytes (s : State) : List Byte :=
  (List.range 16).map (fun i => BitVec.ofNat 8 (s.stagedMap.getD i 0x1F)) ++
    (List.range 16).flatMap (fun n => natBytes 8 (tget {} s.stagedCfg n).w0.toNat ++ natBytes 8 (tget {} s.stagedCfg n).w1.toNat)

/-- A PREPARE record (11 R253): GEN + 1 and the SHAKE256 hash of the staged bytes. -/
def prepareRecord (s : State) : Journal :=
  { commit := false, gen := (s.layGen + 1) % 2 ^ 16, hash := some (shake256 (stagedBytes s)), applied := false }

/-- PREPARE (11 R253): journalled; the phase ends with LAYOUT_PHASE_END. -/
def execPrepare (port : Port) (value : DWord) (s : State) : Out :=
  layCommand s port value 1
    (if s.layPhase != 0 then .next (setLayout s s.layPhase 7 0)
     else .next { s with layPhase := 1, journal := some (prepareRecord s) })

/-- COMMIT (11 R253): accepted only in PHASE 2. -/
def execCommit (port : Port) (value : DWord) (s : State) : Out :=
  layCommand s port value 2
    (if s.layPhase = 0 then .next (setLayout s 0 6 0)
     else if s.layPhase != 2 then .next (setLayout s s.layPhase 7 0)
     else .next { s with layPhase := 3, journal := some { commit := true, gen := (s.layGen + 1) % 2 ^ 16, applied := false } })

/-- The granules that a map gives to a slice. -/
def granulesIn (m : List Nat) (sl : Nat) : List Nat := (List.range 16).filter (fun g => m.getD g 0x1F == sl)

/-- The default ways of some granules (11 R251). -/
def defaultWays (gs : List Nat) : Nat := (gs.map (fun g => 0xF * 2 ^ (4 * (g % 8) + 32 * (g / 8)))).sum

/-- A staged slice configuration, with its default ways resolved (11 R251). -/
def resolvedCfg (s : State) (sl : Nat) : SliceCfg :=
  let c := tget {} s.stagedCfg sl
  if c.w0 = BitVec.allOnes 64 then { c with w0 := BitVec.ofNat 64 (defaultWays (granulesIn s.stagedMap sl)) } else c

/-- The way mask and share that a configuration gives on a die (11 R251). -/
def dieCfg (c : SliceCfg) (die : Nat) : Nat × Nat :=
  (bits c.w0.toNat (32 * die + 31) (32 * die), bits c.w1.toNat (8 * die + 7) (8 * die))

/-- A slice's masks and shares agree with its granules on each die (11 R252). -/
def cfgMatches (c : SliceCfg) (gs : List Nat) : Bool :=
  if gs.isEmpty then c.w0 == 0 && c.w1 == 0
  else [0, 1].all (fun d =>
    let has := gs.any (fun g => g / 8 == d)
    (((dieCfg c d).1 != 0) == has) && (((dieCfg c d).2 != 0) == has))

/-- A slice is empty (11 R252). -/
def sliceEmpty (s : State) (sl : Nat) : Bool :=
  let x := getSlice s sl
  x.ctxs.all (fun c => c.2.state == 0) && (x.tdi == .configUnlocked || x.tdi == .error)

/-- The staged layout changes a slice's granules or port (11 R252). -/
def sliceChanges (s : State) (sl : Nat) : Bool :=
  granulesIn s.stagedMap sl != granulesOf s sl || (resolvedCfg s sl).w1.getLsbD 16 != (tget {} s.sliceCfg sl).w1.getLsbD 16

/-- A staged slice breaks a rule of 11 R252; ways shared with a lower slice break it for the higher one. -/
def sliceBad (s : State) (sl : Nat) : Bool :=
  let c := resolvedCfg s sl
  !cfgMatches c (granulesIn s.stagedMap sl) || (List.range sl).any (fun m => (resolvedCfg s m).w0 &&& c.w0 != 0) ||
    (sliceChanges s sl && !sliceEmpty s sl)

/-- The first failing item of the staged layout (11 R252). -/
def badItem (s : State) : Option Nat :=
  let g := (List.range 16).find? (fun g => let v := s.stagedMap.getD g 0x1F; !(decide (v < 16) || v == 0x1F))
  let sl := ((List.range 16).find? (sliceBad s)).map (fun n => 0x10 + n)
  let sum := ([0, 1].find? (fun d => decide (256 < ((List.range 16).map (fun n => (dieCfg (resolvedCfg s n) d).2)).sum))).map
    (fun d => 0x20 + d)
  g.or (sl.or sum)

/-- A VF's function state when its slice's granules or port change (11 R253, R255): a new VF; what Olsan and the host keep of the
slice stays. -/
def newFunction (x : Slice) : Slice :=
  { x with evstat := 0, evhead := 0, evtail := 0, events := [], errcnt := 0, deforig := [], s1inv := none, s1sel := 0, xlsrc := 0, xllen := 0,
           xlstat := 0, xlreq := none, xlwin := 0, groups := [], members := [], mboxes := [], grids := [], turns := [], batches := [], ctxs := [],
           msixTable := [], msixWaiting := [], report := none }

/-- A slice as a commit leaves it (11 R253, R267, R268). -/
def commitSlice (s : State) (sl : Nat) : Slice :=
  let x := getSlice s sl
  let gs := granulesIn s.stagedMap sl
  let changed := sliceChanges s sl
  let ways := (resolvedCfg s sl).w0 != (tget {} s.sliceCfg sl).w0
  let x1 := if changed then newFunction x else x
  let full := !gs.isEmpty && gs.all (fun g => s.granMap.getD g 0x1F != sl)
  { x1 with tdi := if (changed || ways) && (x.tdi == .configLocked || x.tdi == .run) then .error else x.tdi,
            scrubGen := if full then (s.layGen + 1) % 2 ^ 16 else x.scrubGen }

/-- A commit takes a line out of a slice's ways (11 R253): its way changes owner, or the slice changes its granules or its port. -/
def leavesWays (s : State) (sl : Nat) (x : L2Line) : Bool :=
  sliceChanges s sl || !bitOf (resolvedCfg s sl).w0.toNat (32 * x.die + x.way)

/-- The lines that a commit takes out of a slice's ways. -/
def linesOut (s : State) (sl : Nat) : List Nat :=
  (s.l2.filter (fun e => e.1 % 128 == sl && leavesWays s sl e.2)).map (fun e => lineOf e.1)

/-- The ways that change owner written back and invalidated (07 R150, 11 R253); none while a port does not answer. -/
def clearWays (s : State) : Option State :=
  ((List.range 16).foldl (fun r n => r.bind (fun t => flushLines t n (linesOut s n))) (some s)).map (fun t =>
    { t with l2 := tkeep t.l2 (fun k x => !leavesWays s (k % 128) x) })

/-- The prepared layout applied (11 R253): granules that change slice are scrubbed, the maps, ways and shares follow, GEN moves on. Entries
of the translation cache are hidden from a slice whose granules change (12 R292). -/
def applyCleared (s : State) (result : Nat) : State :=
  let moved := (List.range 16).filter (fun g => s.stagedMap.getD g 0x1F != s.granMap.getD g 0x1F)
  let changed := (List.range 16).filter (sliceChanges s)
  let s1 := moved.foldl scrubGranule s
  let s2 := changed.foldl (fun t n => if granulesIn s.stagedMap n != granulesOf s n then hideEntries (dropTlbs t n) n else dropTlbs t n) s1
  { s2 with
    slices := (List.range 16).foldl (fun t n => tset t n (commitSlice s n)) s2.slices
    sliceCfg := (List.range 16).map (fun n => (n, resolvedCfg s n))
    granMap := s.stagedMap
    layGen := (s.layGen + 1) % 2 ^ 16
    layPhase := 0
    layResult := result
    layBad := 0
    journal := s.journal.map (fun j => { j with applied := true }) }

/-- The prepared layout applied, once the ways that change owner have been written back. -/
def applyLayout (s : State) (result : Nat) : Option State := (clearWays s).map (fun t => applyCleared t result)

/-- Vector 0 of a port's PF0 (11 R253, R258). -/
def raisePf0 (s : State) (p : Port) : State :=
  if portUp s p then { s with msix0 := s.msix0 ++ [p] }
  else if s.msix0Waiting.contains p then s
  else { s with msix0Waiting := s.msix0Waiting ++ [p] }

/-- Both ports interrupted. -/
def raiseBoth (s : State) : State := raisePf0 (raisePf0 s .a) .b

/-- Memory outside the module: host memory and other packages. -/
def outsideMem (m : Memory) : Memory := m.filter (fun e => decide (2 ^ 50 ≤ e.1))

/-- The module as its resets make it: the reset state, with what lies outside the module, the fuses, and the model's own fields. -/
def freshModule (s : State) : State :=
  { State.reset with corecap := s.corecap, mem := outsideMem s.mem, poison := tkeep s.poison (fun k _ => decide (2 ^ 50 ≤ k)),
                     badTags := s.badTags.filter (fun k => decide (2 ^ 50 ≤ k)),
                     fwMin := s.fwMin, linkUp := s.linkUp, linkLong := s.linkLong, hostTimeout := s.hostTimeout,
                     sealedData := s.sealedData, aer := s.aer, msix0 := s.msix0, agenda := s.agenda, cur := s.cur, fresh := s.fresh,
                     hostReply := s.hostReply, lastRead := s.lastRead }

/-- What a device reset keeps besides (01 R16; 11 R249, R281): firmware, journal with its generation, semaphore, debug lifecycle, and
Olsan's measurements of the module. -/
def deviceResetState (s : State) : State :=
  { freshModule s with
    fwActive := s.fwActive, fwstat := if s.fwstat = 2 then 2 else 0, journal := s.journal, layGen := s.layGen
    laysemHeld := s.laysemHeld, laysemPort := s.laysemPort, laysemToken := s.laysemToken, tokenCtr := s.tokenCtr
    debugLife := s.debugLife, dbgfail := s.dbgfail, dbgstat := if s.debugLife then 2 else 0
    sensors := s.sensors, shares := s.shares, ualUp := s.ualUp }

/-- No layout commit is open (01 R17): a prepared one that a device error keeps from a COMMIT or an ABORT is not (log 109). -/
def layoutSettled (s : State) : Bool := s.layPhase == 0 || (s.layPhase == 2 && s.deviceErr)

/-- A device reset that waited for a layout commit's outcome proceeds (01 R17). -/
def settleReset (s : State) : State := if s.resetPending && layoutSettled s then deviceResetState s else s

/-- ABORT (11 R253; 01 R17). -/
def execAbort (port : Port) (value : DWord) (s : State) : Out :=
  layCommand s port value 3
    (if s.layPhase = 0 then .next (setLayout s 0 6 0)
     else if s.layPhase != 2 then .next (setLayout s s.layPhase 7 0)
     else .next (settleReset (setLayout s 0 8 0)))

/-- LAYOUT_PHASE_END (11 R253; 01 R17): Olsan ends a phase also after a device error. Applying waits while a port that it writes lines back
to does not answer (11 R258). -/
def execLayoutPhaseEnd (s : State) : Out :=
  if s.powerLatch then .next s
  else if s.layPhase = 1 then
    .next (settleReset (raiseBoth (match badItem s with
      | none => setLayout s 2 1 0
      | some i => setLayout s 0 5 i)))
  else if s.layPhase = 3 then .next (((applyLayout s 2).map (fun t => settleReset (raiseBoth t))).getD s)
  else .next s

/-- OLSAN_WATCHDOG_RESET (11 R254; 01 R17). -/
def execOlsanWatchdogReset (s : State) : Out :=
  if s.powerLatch then .next s
  else
    match s.journal with
    | none => .next s
    | some j =>
      if !j.commit then .next (settleReset (raiseBoth (setLayout s 0 3 0)))
      else if j.applied then .next (settleReset (raiseBoth (setLayout s s.layPhase 2 0)))
      else .next (((applyLayout s 4).map (fun t => settleReset (raiseBoth t))).getD s)

/-- DEVICE_RESET (01 R16, R17; 11 R250): it waits while a layout commit is open. -/
def execDeviceReset (port : Port) (value : DWord) (s : State) : Out :=
  if s.powerLatch || value.toNat % 16 != 4 then .next s
  else if layRefused s port value then .next (setLayout s s.layPhase 6 0)
  else .next (settleReset { s with resetPending := true })

/-- COLD_RESET (01 R16): only the fuses survive; nothing runs until the power-up order has ended. -/
def execColdReset (s : State) : Out := .next { freshModule s with powerLatch := true, aer := [] }

/-- A firmware image by its header, and its measurements (11 R280; log 6). -/
def firmwareOf (h : Nat) (m : Nat × Nat) : Firmware := { version := h % 64, raise := bitOf h 6, olsan := m.1, engines := m.2 }

/-- Olsan waits in its mask ROM for a firmware image (01 R15). -/
def recovering (s : State) : Bool := s.powerLatch && !s.deviceErr && s.fwstat != 0

/-- The module once the clocks have started with an image (01 R15). -/
def startModule (s : State) (f : Firmware) : State := { freshModule s with fwActive := f, fwstat := if s.fwstat = 2 then 2 else 0 }

/-- POWER_UP (01 R15): the image that the mask ROM finds is verified, checked against the fused minimum and measured; a failed check stops
before the clocks start, with the failure in FWSTAT, until an image has been accepted and made active (log 6). -/
def execPowerUp (s : State) : Out :=
  let f := firmwareOf (Config.bootHeader s.fresh) (Config.imageMeasures s.fresh)
  let s1 := { s with fresh := s.fresh + 1 }
  if !s.powerLatch || s.deviceErr then .next s
  else if s.fwstat = 2 then .next (startModule s s.fwActive)
  else if recovering s then .next s
  else if !Config.bootVerifies s.fresh then .next { s1 with fwstat := 3 }
  else if f.version < s.fwMin then .next { s1 with fwstat := 4 }
  else .next (startModule s1 f)

end Sys2Proof.Machine
end

