-- ==== Sys2Proof/Machine/Olsan.lean ====
section
/-!
DEFINITION. Olsan's registers and those of a VF that have no event of their own (11 R248-R262, R276, R279; 12 R288, R292; 09 R195),
how every register reads, firmware (11 R280) and debug unlock (11 R281).
-/
namespace Sys2Proof.Machine

/-- Contexts pause for an activation (11 R280): every one that there is; they remember their state. -/
def pauseCtx (x : Ctx) : Ctx := if x.state = 0 ∨ x.state = 8 then x else { x with state := 8, paused := x.state }

/-- Paused contexts go on (11 R280). -/
def unpauseCtx (x : Ctx) : Ctx := if x.state = 8 then { x with state := x.paused, paused := 0 } else x

/-- A slice as an activation leaves it (11 R268, R280): its session over, a locked TDI in ERROR; contexts of a VF that was never locked go
on at once. -/
def activateSlice (x : Slice) : Slice :=
  { x with session := none, measured := false,
           tdi := if x.tdi == .configLocked || x.tdi == .run then .error else x.tdi,
           ctxs := if x.everLocked then tmap x.ctxs (fun _ c => pauseCtx c) else x.ctxs }

/-- A firmware command is refused (11 R280): it is for the holder, with LAYCMD's token rule; a module that waits for an image takes it from
either port, whoever held the semaphore (01 R15; log 6). -/
def fwRefused (s : State) (port : Port) (value : DWord) : Bool :=
  if recovering s then bits value.toNat 31 4 != 0 else !accepts s || layRefused s port value

/-- A firmware command taken, or ignored (11 R280). -/
def fwCommand (s : State) (port : Port) (value : DWord) (cmd : Nat) (k : Out) : Out :=
  if value.toNat % 16 != cmd || fwRefused s port value then .next s else k

/-- The image that FWADDR names (11 R280; log 6). -/
def stagedImage (n : Nat) : Firmware := firmwareOf (Config.imageHeader n) (Config.imageMeasures n)

/-- An EXPORT or a PAGEX of some slice runs (11 R282). -/
def exportRuns (s : State) : Bool := s.slices.any (fun x => x.2.slstat == 1 && [2, 3].contains (x.2.slcmd.toNat % 16))

/-- FW_VERIFY (11 R280). -/
def execFwVerify (port : Port) (value : DWord) (s : State) : Out :=
  fwCommand s port value 1
    (let i := stagedImage s.fresh
     let s1 := { s with fresh := s.fresh + 1 }
     if !Config.imageSigned s.fresh then .next { s1 with fwstat := 3 }
     else if i.version < s.fwMin then .next { s1 with fwstat := 4 }
     else .next { s1 with fwstat := 1, fwStaged := i })

/-- FW_ACTIVATE (11 R280, R282): a verified image, switched to with its measurements; it waits while an EXPORT or a PAGEX runs. -/
def execFwActivate (port : Port) (value : DWord) (s : State) : Out :=
  fwCommand s port value 2
    (if s.fwstat != 1 || exportRuns s then .next s
     else .next { s with
       fwActive := s.fwStaged, fwstat := 2, pfSessions := [none, none]
       fwMin := if s.fwStaged.raise then max s.fwMin s.fwStaged.version else s.fwMin
       slices := tmap s.slices (fun _ x => activateSlice x) })

/-- DBGNONCE_READ (11 R281): the nonce is renewed and returned. -/
def execDbgnonceRead (port : Port) (s : State) : Out :=
  whenOpen s (match port with
    | .a | .b => .next { s with dbgnonce := Config.nonce s.fresh, fresh := s.fresh + 1, lastRead := Config.nonce s.fresh })

/-- The token that DBGTOKEN and DBGLEN name in the holding port's host memory (11 R281). -/
def tokenBytes (s : State) (p : Port) : List Byte :=
  (List.range s.dbglen).map (fun i => portByte s (hostAddrKey p ((s.dbgtoken.toNat + i) % 2 ^ 64)))

/-- A token of an allowed length that verifies against the nonce and the lifecycle state (11 R281; log 17). -/
def tokenGood (s : State) (p : Port) : Bool :=
  decide (1 ≤ s.dbglen ∧ s.dbglen ≤ 8192) &&
    Config.verifies (tokenBytes s p ++ natBytes 8 s.dbgnonce.toNat ++ natBytes 1 s.debugLife.toNat)

/-- A slice's tenant keys wiped (11 R281): the slice is reset; one without granules has no VF to raise a vector on. -/
def wipeKeys (s : State) (sl : Nat) : State :=
  let s1 := if vfEnabled s sl then resetSlice s sl else putSlice s sl (resetSliceRegs s.layGen (getSlice s sl))
  putSlice s1 sl { getSlice s1 sl with migKey := none }

/-- DEBUG_UNLOCK (11 R281, R282): it waits for a commit's outcome, and while the holding port's link is down. -/
def execDebugUnlock (port : Port) (value : DWord) (s : State) : Out :=
  whenOpen s
    (if !holds s port || value.toNat / 2 ^ 32 != s.laysemToken || bits value.toNat 31 1 != 0 || !value.getLsbD 0 || s.dbgstat = 1 then .next s
     else if s.layPhase = 3 || !portUp s port then .next s
     else if !tokenGood s port then .next { s with dbgfail := (s.dbgfail + 1) % 2 ^ 32, dbgstat := 3 }
     else .next { (List.range 16).foldl wipeKeys s with debugLife := true, dbgstat := 2 })

/-- A staged granule map with eight bytes written (11 R251): reserved bits stay zero. -/
def stageMap (m : List Nat) (i : Nat) (v : DWord) : List Nat :=
  (List.range 8).foldl (fun m k => setAt m (i + k) (bits v.toNat (8 * k + 4) (8 * k))) m

/-- A staged configuration with a word written (11 R251). -/
def stageCfg (c : SliceCfg) (k : Nat) (v : DWord) : SliceCfg := if k = 0 then { c with w0 := v } else { c with w1 := v &&& 0x1FFFF }

/-- A root address field [51:15] (11 R260, R261). -/
def rootField (v : DWord) : Nat := bits v.toNat 51 15 * 2 ^ 15

/-- SLCMD written with a value that is no command (11 R264); a command is an event of its own. -/
def badCommand (x : Slice) (v : DWord) (command : Bool) : Slice := if command then x else { x with slcmd := v &&& 0xF0F, slstat := 2 }

/-- A register of a slice's host block written (11 R260); registers whose write is an event are not written here. The low 16 bits of a write to
EXPBASE, which the spec neither gives a field nor calls reserved, are dropped (log 126). -/
def writeHostBlock (s : State) (sl off : Nat) (v : DWord) : State :=
  let x := getSlice s sl
  match off with
  | 0x000 => putSlice s sl { x with s2root := rootField v, s2enable := v.getLsbD 0 }
  | 0x010 => putSlice s sl { x with qbudget := bits v.toNat 31 0 }
  | 0x018 => putSlice s sl (badCommand x v (decide (1 ≤ v.toNat % 16 ∧ v.toNat % 16 ≤ 8)))
  | 0x040 => putSlice s sl { x with expbase := v &&& ~~~0xFFFF }
  | 0x048 => putSlice s sl { x with exparg := v &&& 0xFFFFFFFF }
  | _ => s

/-- No routing entry of any slice is valid (11 R248). -/
def noRouting (s : State) : Bool := s.slices.all (fun x => x.2.routing.all (fun e => !e.2.getLsbD 0))

/-- A register of Olsan's window that only the semaphore holder writes (11 R248, R250, R280, R281; 12 R288). The low 6 bits of a write to
DBGTOKEN are dropped (log 126). -/
def writeHeld (s : State) (off : Nat) (v : DWord) : State :=
  match off with
  | 0x08 => { s with semtake := bits v.toNat 31 0 }
  | 0x30 => if noRouting s then { s with pkgid := bits v.toNat 15 0 } else s
  | 0x40 => if s.xentries.isEmpty then { s with xcbase := bits v.toNat 63 30 } else s
  | 0x48 =>
    if s.xentries.isEmpty && decide (bits v.toNat 7 0 ≤ 64) then
      { s with xcport := if v.getLsbD 8 then .b else .a, xcsize := bits v.toNat 7 0 }
    else s
  | 0x30000 => { s with fwaddr := v }
  | 0x40008 => { s with dbgtoken := v &&& ~~~0x3F }
  | 0x40010 => { s with dbglen := bits v.toNat 13 0 }
  | _ =>
    if s.layPhase != 0 || off % 8 != 0 then s
    else if 0x100 ≤ off ∧ off < 0x110 then { s with stagedMap := stageMap s.stagedMap (off - 0x100) v }
    else if 0x200 ≤ off ∧ off < 0x300 then
      let n := (off - 0x200) / 16
      { s with stagedCfg := tset s.stagedCfg n (stageCfg (tget {} s.stagedCfg n) ((off - 0x200) / 8 % 2) v) }
    else s

/-- A write in Olsan's window (11 R248, R250, R276): while the module waits for a firmware image, FWADDR alone (01 R15; log 6). -/
def writePf0 (s : State) (port : Port) (off : Nat) (v : DWord) : State :=
  if recovering s then (if off = 0x30000 then { s with fwaddr := v } else s)
  else if off = 0x10 then
    if [1, 2, 3, 4].contains (v.toNat % 16) then s else setLayout s s.layPhase 6 0
  else if off = 0x38 then
    if 10000000 ≤ v.toNat ∧ v.toNat < 2 ^ 32 then { s with hperiod := v.toNat } else s
  else if 0x10000 ≤ off ∧ off < 0x20000 then writeHostBlock s ((off - 0x10000) / 0x1000) (off % 0x1000) v
  else if holds s port then writeHeld s off v
  else s

/-- A context's entry written (11 R261); VALID is an event of its own. The low 16 bits of a write to SAVEBASE or SAVESIZE are dropped
(log 126). -/
def writeCtxWord (s : State) (sl c k : Nat) (v : DWord) : State :=
  let x := getCtx s sl c
  match k with
  | 0 => putCtx s sl c { x with s1root := rootField v }
  | 1 => if x.state = 0 then putCtx s sl c { x with saveBase := v &&& ~~~0xFFFF } else s
  | 2 => if x.state = 0 ∨ x.state = 3 then putCtx s sl c { x with saveSize := v &&& ~~~0xFFFF } else s
  | _ => s

/-- A mailbox's register written (09 R195); ENABLE and KICK are events of their own. -/
def writeMboxWord (b : Mailbox) (k : Nat) (v : DWord) : Mailbox :=
  match k with
  | 0 => if b.enable then b else { b with base := bits v.toNat 51 12, size := bits v.toNat 4 0 }
  | 1 =>
    if b.enable then b
    else { b with defctx := bits v.toNat 47 32, prio := bits v.toNat 30 29, weight := bits v.toNat 23 16, layout := bits v.toNat 3 0 }
  | 3 => if b.enable then b else { b with expseq := v }
  | 4 =>
    { b with err := b.err && !v.getLsbD 1, errcode := if v.getLsbD 1 then 0 else b.errcode, kahead := b.kahead && !v.getLsbD 0 }
  | _ => b

/-- Half of a 128-bit entry written, in its writable bits. -/
def writeHalf (x : BitVec 128) (high : Bool) (mask v : DWord) : BitVec 128 :=
  let lo : DWord := x.extractLsb' 0 64
  let hi : DWord := x.extractLsb' 64 64
  if high then (v &&& mask) ++ lo else hi ++ (v &&& mask)

/-- An entry of the collective group table written (11 R279). -/
def writeGroup (x : Slice) (off : Nat) (v : DWord) : Slice :=
  let high := off / 8 % 2 == 1
  if off < 0x2400 then
    let g := (off - 0x2000) / 16
    { x with groups := tset x.groups g (writeHalf (tget 0 x.groups g) high (if high then 0 else 0xFFFFFFFF00FFFFFD) v) }
  else
    let m := (off - 0x2400) / 16
    { x with members := tset x.members m (writeHalf (tget 0 x.members m) high (if high then 0x8000000003FFFFFF else BitVec.allOnes 64) v) }

/-- A write in a VF's BAR0 (09 R195; 11 R256, R261, R264, R279; 12 R292). -/
def writeVf (s : State) (sl off : Nat) (v : DWord) : State :=
  let x := getSlice s sl
  if off % 8 != 0 then s
  else if off = 0x10 then (if v = 0 then putSlice s sl { x with errcnt := 0 } else s)
  else if off = 0x48 then putSlice s sl (badCommand x v ((v &&& 0xF0F) == v && (v.toNat % 16 == 6 || v.toNat % 16 == 7)))
  else if off = 0xC00 then putSlice s sl { x with xlsrc := v &&& 0xFFFFFFFFFFFC0 }
  else if off = 0xC08 then putSlice s sl { x with xllen := v &&& 0xFFFFFFFF }
  else if 0x1000 ≤ off ∧ off < 0x1400 then writeCtxWord s sl ((off - 0x1000) / 64) (off / 8 % 8) v
  else if 0x2000 ≤ off ∧ off < 0x3400 then putSlice s sl (writeGroup x off v)
  else if 0x10000 ≤ off ∧ off < 0x11000 then
    let m := (off - 0x10000) / 64
    putSlice s sl { x with mboxes := tset x.mboxes m (writeMboxWord (tget {} x.mboxes m) (off / 8 % 8) v) }
  else s

/-- A half of an entry of a VF's MSI-X table written, in the fields that PCIe gives it (11 R256; log 108); a message that its mask held back
is then sent. -/
def writeMsix (s : State) (sl off : Nat) (v : DWord) : State :=
  let x := getSlice s sl
  if 0x400 ≤ off ∨ off % 8 ≠ 0 then s
  else
    let e := writeHalf (msixEntry x (off / 16)) (off / 8 % 2 == 1) (if off / 8 % 2 = 1 then 0x1FFFFFFFF else 0xFFFFFFFFFFFFFFFC) v
    sendWaiting (putSlice s sl { x with msixTable := tset x.msixTable (off / 16) e }) sl

/-- REGISTER_WRITE (00 R5): reserved bits are ignored. -/
def execRegisterWrite (target : RegTarget) (value : DWord) (s : State) : Out :=
  match target with
  | .pf0 port off => if s.deviceErr || (s.powerLatch && !recovering s) then .next s else .next (writePf0 s port off value)
  | .vf sl off => whenVf s sl (.next (writeVf s sl off value))
  | .msix sl off => whenVf s sl (.next (writeMsix s sl off value))

/-- SLSTAT (11 R260). -/
def slstatWord (x : Slice) : DWord :=
  BitVec.ofNat 64 (x.slstat + ((List.range 15).map (fun c => (tget {} x.ctxs c).state * 2 ^ (4 + 4 * c))).sum)

/-- Half of a 128-bit entry as it reads. -/
def halfOf (e : BitVec 128) (off : Nat) : DWord := if off / 8 % 2 = 0 then e.extractLsb' 0 64 else e.extractLsb' 64 64

/-- A register of a slice's host block as it reads (11 R260, R278). -/
def readHostBlock (s : State) (sl off : Nat) : DWord :=
  let x := getSlice s sl
  match off with
  | 0x000 => BitVec.ofNat 64 (x.s2root + x.s2enable.toNat)
  | 0x008 => BitVec.ofNat 64 (x.s2busy.toNat * 2)
  | 0x010 => BitVec.ofNat 64 x.qbudget
  | 0x018 => x.slcmd
  | 0x020 => slstatWord x
  | 0x028 => BitVec.ofNat 64 (tget {} x.ctxs 15).state
  | 0x038 => x.s2flt
  | 0x040 => x.expbase
  | 0x048 => x.exparg
  | _ => if 0x400 ≤ off ∧ off < 0x800 then halfOf (tget 0 x.routing ((off - 0x400) / 16)) off else 0

/-- A register of Olsan's window as a read without side effect shows it (11 R248, R250, R260, R280, R281; 01 R8, R13). -/
def readPf0 (s : State) (off : Nat) : DWord :=
  let map := fun (m : List Nat) (i : Nat) => BitVec.ofNat 64 (bytesNat ((List.range 8).map (fun k => BitVec.ofNat 8 (m.getD (i + k) 0x1F))))
  let cfg := fun (t : Tbl SliceCfg) (o : Nat) => let c := tget {} t (o / 16); if o / 8 % 2 = 0 then c.w0 else c.w1
  match off with
  | 0x08 => BitVec.ofNat 64 s.semtake
  | 0x18 => BitVec.ofNat 64 (s.layGen * 2 ^ 32 + s.layResult * 2 ^ 16 + s.layBad * 2 ^ 8 + s.layPhase)
  | 0x20 => s.corecap.extractLsb' 0 64
  | 0x28 => s.corecap.extractLsb' 64 64
  | 0x30 => BitVec.ofNat 64 s.pkgid
  | 0x38 => BitVec.ofNat 64 s.hperiod
  | 0x40 => BitVec.ofNat 64 (s.xcbase * 2 ^ 30)
  | 0x48 => BitVec.ofNat 64 (portIx s.xcport * 2 ^ 8 + s.xcsize)
  | 0x30000 => s.fwaddr
  | 0x30010 => BitVec.ofNat 64 s.fwstat
  | 0x40008 => s.dbgtoken
  | 0x40010 => BitVec.ofNat 64 s.dbglen
  | 0x40020 => BitVec.ofNat 64 s.dbgstat
  | 0x40028 => BitVec.ofNat 64 s.dbgfail
  | _ =>
    if 0x100 ≤ off ∧ off < 0x110 then map s.stagedMap (off - 0x100)
    else if 0x200 ≤ off ∧ off < 0x300 then cfg s.stagedCfg (off - 0x200)
    else if 0x400 ≤ off ∧ off < 0x410 then map s.granMap (off - 0x400)
    else if 0x500 ≤ off ∧ off < 0x600 then cfg s.sliceCfg (off - 0x500)
    else if 0x10000 ≤ off ∧ off < 0x20000 then readHostBlock s ((off - 0x10000) / 0x1000) (off % 0x1000)
    else if 0x20000 ≤ off ∧ off < 0x20200 then
      let x := tget {} s.sensors ((off - 0x20000) / 8)
      BitVec.ofNat 64 (x.seq * 2 ^ 32 + x.valid.toNat * 2 ^ 31 + x.kind * 2 ^ 28 + x.value.toNat)
    else 0

/-- A mailbox's registers as they read (09 R195). -/
def mboxWord (b : Mailbox) (k : Nat) : DWord :=
  match k with
  | 0 => BitVec.ofNat 64 (b.base * 2 ^ 12 + b.size)
  | 1 => BitVec.ofNat 64 (b.defctx * 2 ^ 32 + b.enable.toNat * 2 ^ 31 + b.prio * 2 ^ 29 + b.weight * 2 ^ 16 + b.layout)
  | 3 => b.expseq
  | 4 => BitVec.ofNat 64 (b.errcode * 2 ^ 8 + b.err.toNat * 2 + b.kahead.toNat)
  | 5 => b.lastdone
  | _ => 0

/-- A context's entry as it reads (11 R261). -/
def ctxWord (x : Ctx) (k : Nat) : DWord :=
  match k with
  | 0 => BitVec.ofNat 64 (x.s1root + (if x.state = 0 then 0 else 1))
  | 1 => x.saveBase
  | 2 => x.saveSize
  | 3 => BitVec.ofNat 64 (x.state + x.lostRec * 2 ^ 4)
  | _ => 0

/-- The slice's cores, or its harvested ones, as a map of 128 bits (11 R262). -/
def coreMap (s : State) (sl : Nat) (harvested : Bool) : BitVec 128 :=
  BitVec.ofNat 128 (((coresOf s sl).filter (fun c => !harvested || s.corecap.getLsbD c)).map (fun c => 2 ^ c)).sum

/-- The fields of a health report, eight bytes each (11 R276; log 18). -/
def reportFields (r : Report) : List Byte :=
  [r.seq, r.gen, r.kgen, r.secVersion, r.errcnt.toNat, r.notices].flatMap (natBytes 8)

/-- Eight bytes of a slice's health report as they read at VF BAR0 0x4000 and above (11 R276; log 18). -/
def reportWord (x : Slice) (off : Nat) : DWord :=
  match x.report with
  | none => 0
  | some r => BitVec.ofNat 64 (bytesNat (((reportFields r ++ r.signature).drop off).take 8))

/-- The PBA of a VF (11 R256): bit v is set while vector v waits. -/
def pbaWord (x : Slice) : DWord := maskOf (fun v => x.msixWaiting.contains v)

/-- The MSI-X table and PBA of a VF's BAR2 as they read (11 R256; log 108). -/
def readMsix (s : State) (sl off : Nat) : DWord :=
  let x := getSlice s sl
  if off < 0x400 then halfOf (msixEntry x (off / 16)) off else if off = 0x800 then pbaWord x else 0

/-- A register of a VF's BAR0 as it reads (09 R195; 11 R256, R261, R262, R264, R276, R279; 12 R292). -/
def readVf (s : State) (sl off : Nat) : DWord :=
  let x := getSlice s sl
  let d := x.deforig.headD 0
  match off with
  | 0x00 => BitVec.ofNat 64 x.evstat.toNat
  | 0x08 => x.evhead
  | 0x10 => x.errcnt
  | 0x18 => x.evtail
  | 0x20 => (coreMap s sl false).extractLsb' 0 64
  | 0x28 => (coreMap s sl false).extractLsb' 64 64
  | 0x30 => (coreMap s sl true).extractLsb' 0 64
  | 0x38 => (coreMap s sl true).extractLsb' 64 64
  | 0x40 => BitVec.ofNat 64 (x.s1sel * 2 ^ 16 + x.s1inv.isSome.toNat * 2)
  | 0x48 => x.slcmd
  | 0x60 => d.extractLsb' 0 64
  | 0x68 => d.extractLsb' 64 64
  | 0xC00 => x.xlsrc
  | 0xC08 => x.xllen
  | 0xC18 => BitVec.ofNat 64 x.xlstat
  | 0xC20 => x.xlwin
  | 0xC28 => BitVec.ofNat 64 (Config.revisions.toNat * 2 ^ 16 + 0x300)
  | _ =>
    if 0x800 ≤ off ∧ off < 0xC00 then
      halfOf (tget 0 x.events ((off - 0x800) / 16)) off
    else if 0x1000 ≤ off ∧ off < 0x1400 then ctxWord (tget {} x.ctxs ((off - 0x1000) / 64)) (off / 8 % 8)
    else if 0x2000 ≤ off ∧ off < 0x2400 then halfOf (tget 0 x.groups ((off - 0x2000) / 16)) off
    else if 0x2400 ≤ off ∧ off < 0x3400 then halfOf (tget 0 x.members ((off - 0x2400) / 16)) off
    else if 0x4000 ≤ off ∧ off < 0x10000 then reportWord x (off - 0x4000)
    else if 0x10000 ≤ off ∧ off < 0x11000 then mboxWord (tget {} x.mboxes ((off - 0x10000) / 64)) (off / 8 % 8)
    else 0

end Sys2Proof.Machine
end

