-- ==== Sys2Proof/Machine/Portable.lean ====
section
/-!
DEFINITION. Portable images (12 R283, R284, R286) and their translation (12 R287, R290, R293): the field rules of a file, what the
translator refuses, and the translated descriptors and code. A request's bytes are a ZCO file whose image begins at byte 0 (log 102).
-/
namespace Sys2Proof.Machine

/-- n bytes of a file at an offset, as a number. -/
def fileNum (bs : List Byte) (o n : Nat) : Nat := bytesNat ((bs.drop o).take n)

/-- The two 32-bit halves of an entry's word: an offset and a size or count (12 R283). -/
structure Extent where
  off : Nat
  size : Nat
  deriving DecidableEq, Repr

/-- An entry of the image table (12 R283). -/
structure ImageEntry where
  head : Nat
  code : Extent
  data : Extent
  desc : Extent
  pool : Extent
  relocs : Extent
  names : Extent
  image : Extent
  deriving DecidableEq, Repr

/-- Word n of an entry as an extent whose items have a size. -/
def extentAt (bs : List Byte) (o n item : Nat) : Extent :=
  { off := fileNum bs (o + 8 * n) 4, size := fileNum bs (o + 8 * n + 4) 4 * item }

/-- Entry i of the image table (12 R283). -/
def entryAt (bs : List Byte) (i : Nat) : ImageEntry :=
  let o := 64 + 128 * i
  { head := fileNum bs o 8, code := extentAt bs o 1 1, data := extentAt bs o 2 1, desc := extentAt bs o 3 64, pool := extentAt bs o 4 64,
    relocs := extentAt bs o 5 16, names := extentAt bs o 6 1, image := extentAt bs o 7 1 }

/-- The entries of a file's image table (12 R283). -/
def imageTable (bs : List Byte) : List ImageEntry := (List.range (fileNum bs 6 2)).map (entryAt bs)

/-- An entry is of a portable image (12 R283). -/
def ImageEntry.portable (e : ImageEntry) : Bool := e.head % 256 == 1

/-- NOCONTRACT, DET and COMPAT16 in bits 0 to 2 (12 R283, R290). -/
def ImageEntry.flags (e : ImageEntry) : Nat := bits e.head 26 24

/-- Where the image of an entry begins: a portable one's at byte 0 (12 R292). -/
def ImageEntry.start (e : ImageEntry) : Nat := if e.portable then 0 else e.image.off

/-- Sections in order inside a range, at multiples of 64, without overlap (12 R283); one of no bytes lies anywhere. -/
def sectionsFit (top : Nat) : Nat → List Extent → Bool
  | _, [] => true
  | lo, x :: t =>
    x.off % 64 == 0 &&
      (if x.size = 0 then sectionsFit top lo t else decide (lo ≤ x.off ∧ x.off + x.size ≤ top) && sectionsFit top (x.off + x.size) t)

/-- The sections of an entry in their order (12 R283). -/
def ImageEntry.sections (e : ImageEntry) : List Extent := [e.code, e.data, e.desc, e.pool, e.relocs, e.names]

/-- A relocation entry (12 R284): the field's section and offset, the target section, the addend. -/
structure Reloc where
  section_ : Nat
  field : Nat
  target : Nat
  addend : Nat
  deriving DecidableEq, Repr

/-- The relocation entries of an image (12 R284). -/
def relocsOf (bs : List Byte) (e : ImageEntry) : List Reloc :=
  (List.range (e.relocs.size / 16)).map (fun i =>
    let w := fileNum bs (e.relocs.off + 16 * i) 16
    { section_ := bits w 63 62, field := bits w 31 0, target := bits w 61 60, addend := bits w 127 64 })

/-- A relocation entry as it lies in the file breaks no field rule (12 R284): in the descriptor table it names ENTRY, TRAPVA or QUIESCEVA
and the code. -/
def relocOk (bs : List Byte) (e : ImageEntry) (i : Nat) : Bool :=
  let w := fileNum bs (e.relocs.off + 16 * i) 16
  let f := bits w 31 0
  let size := match bits w 63 62 with
    | 0 => e.pool.size
    | 1 => e.desc.size
    | 2 => e.data.size
    | _ => 0
  bits w 59 32 == 0 && bits w 61 60 != 3 && f % 8 == 0 && decide (f + 8 ≤ size) &&
    (bits w 63 62 != 1 || (bits w 61 60 == 0 && decide (1 ≤ f / 8 % 8 ∧ f / 8 % 8 ≤ 3)))

/-- The relocation entry of word i of descriptor k (12 R284). -/
def descReloc (rs : List Reloc) (k i : Nat) : Option Reloc := rs.find? (fun r => r.section_ == 1 && r.field == 64 * k + 8 * i)

/-- Descriptor k of an image as it is stored (12 R283). -/
def storedDesc (bs : List Byte) (e : ImageEntry) (k : Nat) : Nat := fileNum bs (e.desc.off + 64 * k) 64

/-- A descriptor as it is stored breaks no field rule (12 R283, R286): ENTRY has a relocation entry, a handler has one or is 0, and a
portable kernel names an exact width. -/
def descOk (bs : List Byte) (e : ImageEntry) (rs : List Reloc) (k : Nat) : Bool :=
  let d := storedDesc bs e k
  (descReloc rs k 1).isSome && ((descReloc rs k 2).isSome || bits d 191 128 == 0) && ((descReloc rs k 3).isSome || bits d 255 192 == 0) &&
    (!e.portable || (bits d 24 23 != 0 && bitOf d 22))

/-- The names of an image: one of each kernel, ended by a NUL (12 R283). -/
def namesOk (bs : List Byte) (e : ImageEntry) : Bool :=
  let ns := (bs.drop e.names.off).take e.names.size
  decide ((ns.filter (· == 0)).length = e.desc.size / 64) && (ns.getLast?.getD 0 == 0)

/-- An entry breaks no field rule (12 R283, R284). -/
def entryOk (bs : List Byte) (e : ImageEntry) : Bool :=
  let rs := relocsOf bs e
  decide (e.head % 256 ≤ 1) && bits e.head 63 27 == 0 && (e.portable || e.flags == 0) && e.image.off % 64 == 0 &&
    decide (e.start + e.image.size ≤ bs.length) && sectionsFit (e.start + e.image.size) e.start e.sections &&
    (List.range rs.length).all (relocOk bs e) && (List.range (e.desc.size / 64)).all (descOk bs e rs) && namesOk bs e

/-- The header of a file breaks no field rule (12 R283). -/
def headerOk (bs : List Byte) : Bool :=
  let n := fileNum bs 6 2
  fileNum bs 0 4 == 0x334F435A && fileNum bs 4 2 == 1 && decide (1 ≤ n ∧ n ≤ 16) && fileNum bs 8 8 == bs.length &&
    fileNum bs 16 48 == 0 && decide (64 + 128 * n ≤ bs.length)

/-- The portable entry of a request's bytes (12 R283, R285, R292); none where they are malformed. -/
def portableEntry (bs : List Byte) : Option ImageEntry :=
  if headerOk bs && (imageTable bs).all (entryOk bs) then
    match (imageTable bs).filter (fun e => e.portable) with
    | [e] => some e
    | _ => none
  else none

/-- The kernels of an image. -/
def kernelCount (e : ImageEntry) : Nat := e.desc.size / 64

/-- The words of code with their places, the literals of ULITs left out (04 R81). -/
def codeWords : Nat → List Nat → List (Nat × Nat)
  | _, [] => []
  | i, [w] => [(i, w)]
  | i, w :: v :: t => if bits w 31 25 = 0x47 then (i, w) :: codeWords (i + 2) t else (i, w) :: codeWords (i + 1) (v :: t)

/-- The words of an image's code section. -/
def imageWords (bs : List Byte) (e : ImageEntry) : List (Nat × Nat) :=
  codeWords 0 ((List.range (e.code.size / 4)).map (fun i => fileNum bs (e.code.off + 4 * i) 4))

/-- The region of code that holds a place (12 R286); none outside them. -/
def regionAt (rs : List (Nat × Nat)) (i : Int) : Option Nat :=
  (List.range rs.length).find? (fun n => decide (((rs.getD n (0, 0)).1 : Int) ≤ i ∧ i < (rs.getD n (0, 0)).2))

/-- A signed field of n bits at the bottom of a word. -/
def offsetOf (w n : Nat) : Int := (BitVec.ofNat n w).toInt

/-- The word offset of a branch, a JENR or a CALL (04 R70, R72, R80). -/
def branchOffset (w : Nat) : Option Int :=
  match bits w 31 25 with
  | 0x1E => some (offsetOf w 19)
  | 0x1D => if bitOf w 21 then none else some (offsetOf w 21)
  | 0x4D => some (offsetOf w 10)
  | 0x4E => some (offsetOf w 25)
  | 0x4F => some (offsetOf w 25)
  | _ => none

/-- The nominal grant of a kernel: its exact width (04 R89, 12 R286). -/
def nominalGrant (d : Nat) : Nat := 8 * 2 ^ bits d 24 23

/-- The nominal grants of the kernels whose code holds a place (04 R90, 12 R286). -/
def grantsAt (bs : List Byte) (e : ImageEntry) (i : Nat) : List Nat :=
  let rs := relocsOf bs e
  (List.range (kernelCount e)).filterMap (fun k =>
    let d := storedDesc bs e k
    let a := match descReloc rs k 1 with
      | none => 0
      | some r => r.addend
    if a ≤ 4 * i ∧ 4 * i < a + bits d 479 448 then some (nominalGrant d) else none)

/-- A cross-lane word whose explicit segment is wider than a nominal grant (03 R33, 12 R286). -/
def tooWide (w : Nat) (grants : List Nat) : Bool :=
  decide (0x16 ≤ bits w 31 25 ∧ bits w 31 25 ≤ 0x1A) && bits w 3 2 != 3 && grants.any (fun g => decide (g < 16 * 2 ^ bits w 3 2))

/-- A BAR inside a region is a BARSYNC on the whole team's count at the region's top level (12 R286). -/
def splits (bs : List Byte) (i w : Nat) : Bool := bits w 12 11 == 2 && bits w 18 13 == 0 && !Config.divergentAt bs i

/-- A word for which the translator refuses an image (12 R286). -/
def refusedWord (bs : List Byte) (e : ImageEntry) (rs : List (Nat × Nat)) (i w : Nat) : Bool :=
  let inside := (regionAt rs i).isSome
  let crosses := match branchOffset w with
    | none => false
    | some o => regionAt rs ((i : Int) + o) != regionAt rs i
  (!bitOf w 31 && !inside) || crosses || (bits w 31 25 == 0x51 && inside && !splits bs i w) ||
    bits w 31 25 == 0x52 || bits w 31 25 == 0x53 || tooWide w (grantsAt bs e i)

/-- The translator refuses an image (12 R286). -/
def refusedImage (bs : List Byte) (e : ImageEntry) : Bool :=
  (imageWords bs e).any (fun x => refusedWord bs e (Config.regionsOf bs) x.1 x.2)

/-- A descriptor in its entry (12 R290): what the loader would patch carries window addresses. -/
def translatedDesc (bs : List Byte) (e : ImageEntry) (base k : Nat) : List Byte :=
  (List.range 8).flatMap (fun i => natBytes 8 (match descReloc (relocsOf bs e) k i with
    | none => bits (storedDesc bs e k) (64 * i + 63) (64 * i)
    | some r => base + 64 * kernelCount e + r.addend))

/-- The translated bytes of an image in the entry at a window address (12 R287, R290): the descriptors, kernel k's at 64 × k, then the code.
Every parallel-for runs across lanes at the nominal grant, which the descriptors ask for exactly, and no rounding changes (log 102). -/
def translatedImage (bs : List Byte) (e : ImageEntry) (base : Nat) : List Byte :=
  (List.range (kernelCount e)).flatMap (translatedDesc bs e base) ++ (bs.drop e.code.off).take e.code.size

/-- The key of a portable image's entry (12 R290). -/
def entryKey (bs : List Byte) (e : ImageEntry) : Nat :=
  shake256 (natBytes 64 (shake256 bs) ++ natBytes 2 (Config.revisions.toNat % 2 ^ 16) ++ natBytes 2 (Config.revisions.toNat / 2 ^ 16) ++
    natBytes 1 e.flags)

end Sys2Proof.Machine
end

