-- ==== Sys2Proof/Machine/CodeCache.lean ====
section
/-!
DEFINITION. The translation cache (12 R288-R292, R297): requests and releases of a slice, the entries in their frames and reclaim.
-/
namespace Sys2Proof.Machine

/-- A request's outcome (12 R292): the window leaves the slice's TLBs, then XLSTAT and XLWIN change. -/
def setXlate (s : State) (sl st : Nat) (win : DWord) : State :=
  let s1 := dropWindowTlbs s sl
  putSlice s1 sl { getSlice s1 sl with xlstat := st, xlwin := win, xlreq := none }

/-- The window address of a slot (12 R290). -/
def windowOf (slot : Nat) : Nat := 0xFF00000000000 + slot * 2 ^ 24

/-- The bit of a slice among an entry's visibility bits. -/
def sliceBit (sl : Nat) : BitVec 16 := BitVec.ofNat 16 (2 ^ sl)

/-- The greatest use count (12 R291). -/
def maxAge (es : List XEntry) : Nat := (es.map (fun e => e.age)).foldl max 0

/-- Entries whose use counts leave room for one more in 20 bits (12 R291): their order is kept (log 90). -/
def roomForUse (es : List XEntry) : List XEntry :=
  if maxAge es + 1 < 2 ^ 20 then es else es.map (fun e => { e with age := (es.filter (fun f => decide (f.age < e.age))).length })

/-- Frames that hold entries (12 R291). -/
def frameCount (s : State) : Nat := s.xcsize * 64 - 1

/-- A free frame (12 R291). -/
def freeFrame (s : State) : Option Nat :=
  (List.range (frameCount s)).findSome? (fun i => if s.xentries.any (fun e => e.frame == i + 1) then none else some (i + 1))

/-- The least recently used entry that no slice sees (12 R292). -/
def reclaimable (s : State) : Option XEntry :=
  (s.xentries.filter (fun e => e.visible == 0)).foldl (fun r e => match r with
    | none => some e
    | some b => if e.age < b.age then some e else r) none

/-- Room for an entry, made by reclaiming one where none is free (12 R292). -/
def makeRoom (s : State) : Option (Nat × State) :=
  match freeFrame s with
  | some f => some (f, s)
  | none => (reclaimable s).map (fun e => (e.frame, putEntries s (s.xentries.filter (fun x => x.slot != e.slot))))

/-- The first 128-byte lines of a frame that some bytes fill, and the line of its key record (12 R291). -/
def frameLines (frame n : Nat) : List Nat := (List.range ((n + 127) / 128)).map (fun i => frame * 2 ^ 24 + 128 * i) ++ [2 ^ 23 + frame * 64]

/-- A translation stored in a frame (12 R291, R292): its frame and key record, then the slot word with this slice's bit alone. -/
def storeEntry (s : State) (sl key frame : Nat) (code : List Byte) : State :=
  let es := roomForUse s.xentries
  let e : XEntry := { slot := key % 2 ^ 20, key := key, visible := sliceBit sl, age := maxAge es + 1, frame := frame, code := code }
  let s1 := (frameLines frame code.length).foldl sealLine { s with xentries := s.xentries ++ [{ e with visible := 0 }] }
  putEntries s1 (es ++ [e])

/-- An entry used by a slice (12 R292). -/
def useEntry (s : State) (sl slot : Nat) : State :=
  let es := roomForUse s.xentries
  putEntries s (es.map (fun e => if e.slot = slot then { e with visible := e.visible ||| sliceBit sl, age := maxAge es + 1 } else e))

/-- A request for the portable image of some bytes (12 R292). An image too long for a frame finds no room for it (log 102). -/
def requestEntry (s : State) (sl : Nat) (bs : List Byte) (img : ImageEntry) : State :=
  let key := entryKey bs img
  let slot := key % 2 ^ 20
  let win := BitVec.ofNat 64 (windowOf slot)
  match s.xentries.find? (fun e => e.slot == slot) with
  | some e => if e.key = key then setXlate (useEntry s sl slot) sl 2 win else setXlate s sl 7 0
  | none =>
    let code := translatedImage bs img (windowOf slot)
    if refusedImage bs img then setXlate s sl 6 0
    else if 2 ^ 24 < code.length then setXlate s sl 5 0
    else
      match makeRoom s with
      | none => setXlate s sl 5 0
      | some (f, s1) => setXlate (storeEntry s1 sl key f code) sl 3 win

/-- This slice's bit of the entry of some bytes cleared (12 R292). -/
def releaseEntry (s : State) (sl : Nat) (bs : List Byte) (img : ImageEntry) : State :=
  let key := entryKey bs img
  setXlate (putEntries s (s.xentries.map (fun e => if e.key = key then { e with visible := e.visible &&& ~~~sliceBit sl } else e))) sl 8 0

/-- A slice's request as far as it gets now (12 R288, R292): its bytes are read through stage 2, where a length out of range, a failed read
or malformed bytes read 4; it stays busy while the port of the bytes or of the cache does not answer (log 90). -/
def workXlate (s : State) (sl : Nat) : State :=
  let x := getSlice s sl
  let n := x.xllen.toNat
  match x.xlreq with
  | none => s
  | some release =>
    if n < 64 ∨ 2 ^ 28 < n then setXlate s sl 4 0
    else
      match olsanRead s sl x.xlsrc.toNat n with
      | .error .waits => s
      | .error e => setXlate (reportTr s sl 0 e) sl 4 0
      | .ok (bs, s1) =>
        match portableEntry bs with
        | none => setXlate s1 sl 4 0
        | some img =>
          if s1.xcsize != 0 && !portUp s1 s1.xcport then s
          else if release then releaseEntry s1 sl bs img
          else requestEntry s1 sl bs img

/-- Busy requests go on once a port answers again (12 R288), one after another (12 R297). -/
def workAllXlate (s : State) : State := (List.range 16).foldl workXlate s

/-- GO (12 R292): ignored while a request is busy. -/
def startXlate (s : State) (sl : Nat) (release : Bool) : Out :=
  let x := getSlice s sl
  whenVf s sl (if x.xlstat = 1 then .next s else .next (workXlate (putSlice s sl { x with xlstat := 1, xlreq := some release }) sl))

/-- XLATE_REQUEST (12 R292). -/
def execXlateRequest (slice : Nat) (s : State) : Out := startXlate s slice false

/-- XLATE_RELEASE (12 R292). -/
def execXlateRelease (slice : Nat) (s : State) : Out := startXlate s slice true

end Sys2Proof.Machine
end

