-- ==== Sys2Proof/Machine/Collective.lean ====
section
/-!
DEFINITION. The collective engines (07 R163; 11 R272, R279; 05 R102, R110): the members of this module take their steps together, and the
events COLL_STEP and COLL_TIMEOUT say what the members of other packages do.
-/
namespace Sys2Proof.Machine

/-- The greater of two FP32 values (07 R163): two NaNs give the canonical NaN (05 R93); one NaN, or zeros of opposite sign, have no stated
result (log 46). -/
def maxF32 (a b : Nat) : Nat :=
  let x := valueOf .f32 a
  let y := valueOf .f32 b
  if x.isNan && y.isNan then 0x7FC00000
  else if x.isNan || y.isNan || (x.isZero && y.isZero && a != b) then Config.maxCorner a b % 2 ^ 32
  else if valueKey a < valueKey b then b
  else a

/-- Two contributions combined, in FP32 or as I32 (07 R163), with the events of the rounding (05 R110). -/
def collCombine (isMax : Bool) (f : Fmt) (a b : Nat) : Nat × Events :=
  if f = .i32 then
    (if isMax then if signedNat 32 a < signedNat 32 b then b else a
     else (a + b) % 2 ^ 32, [])
  else if isMax then (maxF32 a b, [])
  else opAdd .f32 .rne false a b

/-- A contribution as it enters a sum (07 R163): exact in FP32, or an I32. -/
def collIn (f : Fmt) (b : Nat) : Nat × Events := if f = .bf16 then deliver .f32 .rne false (valueOf .bf16 b) else (b, [])

/-- A result as it is written (07 R163). -/
def collOut (f : Fmt) (b : Nat) : Nat × Events := if f = .bf16 then deliver .bf16 .rne false (valueOf .f32 b) else (b, [])

/-- One more contribution of a reduction. -/
def collNext (isMax : Bool) (f : Fmt) (r : Nat × Events) (b : Nat) : Nat × Events :=
  let x := collIn f b
  let y := collCombine isMax f r.1 x.1
  (y.1, r.2 ++ x.2 ++ y.2)

/-- The result of a reduction over contributions in ascending rank (07 R163), and its events (05 R110). -/
def collReduce (isMax : Bool) (f : Fmt) (xs : List Nat) : Nat × Events :=
  match xs with
  | [] => (0, [])
  | x :: t =>
    let r := t.foldl (collNext isMax f) (collIn f x)
    let y := collOut f r.1
    (y.1, r.2 ++ y.2)

/-- A COLL operation's parameters, where it is one. -/
structure CollOp where
  td : Desc
  p0 : DWord
  p1 : DWord
  p2 : DWord
  g : CollGroup
  kgen : Nat
  deriving DecidableEq, Repr

/-- The parameters of an operation that is a COLL. -/
def collOf (o : AsyncOp) : Option CollOp :=
  match o.kind with
  | .coll td p0 p1 p2 g kgen => some { td := td, p0 := p0, p1 := p1, p2 := p2, g := g, kgen := kgen }
  | _ => none

/-- A member other than its own lies on this package (11 R279). -/
def CollOp.localRank (s : State) (c : CollOp) (r : Nat) : Option Nat :=
  (c.g.members[r]?).bind (fun m => if r != c.g.self && m.pkg == s.pkgid then some m.slice else none)

/-- The ranks of a group's other members on this package, with their slices. -/
def localMembers (s : State) (c : CollOp) : List (Nat × Nat) :=
  (List.range c.g.members.length).filterMap (fun r => (c.localRank s r).map (fun sl => (r, sl)))

/-- The operation with which another slice of this package takes part (log 45): its oldest unfinished COLL whose group names the asking
slice. -/
def partner (s : State) (asker sl : Nat) : Option (Nat × AsyncOp) :=
  s.ops.find? (fun e => e.2.slice == sl && !e.2.finished &&
    (collOf e.2).any (fun c => c.g.members.any (fun m => m.pkg == s.pkgid && m.slice == asker)))

/-- The partners of an operation on this package; none while one has not come to its COLL. -/
def partners (s : State) (o : AsyncOp) (c : CollOp) : Option (List (Nat × Nat × AsyncOp)) :=
  (localMembers s c).mapM (fun m => (partner s o.slice m.2).map (fun e => (m.1, e.1, e.2)))

/-- The partners that have come to their COLL. -/
def presentPartners (s : State) (o : AsyncOp) (c : CollOp) : List (Nat × Nat × AsyncOp) :=
  (localMembers s c).filterMap (fun m => (partner s o.slice m.2).map (fun e => (m.1, e.1, e.2)))

/-- Members as their packages, slices and ranks: addresses differ from slice to slice. -/
def groupPlaces (g : CollGroup) : List (Nat × Nat) := g.members.map (fun m => (m.pkg, m.slice))

/-- Two members agree in operation, which a broadcast's root is part of (log 45), count, format and group (07 R163). -/
def collAgree (a b : CollOp) : Bool :=
  bits a.p0.toNat 9 0 == bits b.p0.toNat 9 0 && (bits a.p0.toNat 3 0 != 4 || bits a.p0.toNat 15 10 == bits b.p0.toNat 15 10) && a.p2 == b.p2 && descFmt a.td == descFmt b.td && groupPlaces a.g == groupPlaces b.g

/-- A rotation has come since the operation's issue (11 R272). -/
def rotated (s : State) (o : AsyncOp) (c : CollOp) : Bool := (getSlice s o.slice).kgen != c.kgen

/-- Two members contribute under one key generation (11 R272): both captured the same at their issue, and the other's slice has not rotated
since. -/
def sameKeys (s : State) (c : CollOp) (p : AsyncOp) : Bool := (collOf p).all (fun x => x.kgen == c.kgen && !rotated s p x)

/-- An operation and its partners fail together (07 R163, 11 R272). -/
def failAll (s : State) (id : Nat) (o : AsyncOp) (ps : List (Nat × Nat × AsyncOp)) (err : Nat) : State :=
  ps.foldl (fun s p => finishOp s p.2.1 p.2.2 (some { err := err, addr := 0 })) (finishOp s id o (some { err := err, addr := 0 }))

/-- An element at a key, as the window of a member gives it: what a partner's threads have stored reaches home first (08 R188). -/
def windowElem (s : State) (o : AsyncOp) (ps : List (Nat × Nat × AsyncOp)) (rank k size : Nat) (ia : Nat) : Eng Nat :=
  match ((ps.find? (fun p => p.1 == rank)).map (fun p => drainLine s p.2.2.core (lineOf k))).getD (some s) with
  | none => .waits
  | some s1 =>
    if isPoisoned s1 k || reach s1 o.slice k == .refused then .fails { err := 12, addr := BitVec.ofNat 64 ia, tag := consumed s1 k }
    else if reach s1 o.slice k == .waits then .waits
    else .ok (bytesNat (freshBytes s1 o.slice k size)) (l2Read s1 o.slice k)

/-- The first element of a member's region (13 R317): a partner's own; another package's is taken to be the same. -/
def firstElem (c : CollOp) (ps : List (Nat × Nat × AsyncOp)) (rank : Nat) : Nat :=
  match (ps.find? (fun p => p.1 == rank)).bind (fun p => collOf p.2.2) with
  | none => c.p1.toNat
  | some x => x.p1.toNat

/-- Element i of a member's region (11 R279): the slice's own through its descriptor, another's at its intermediate address through
a routing window. -/
def collRead (o : AsyncOp) (c : CollOp) (ps : List (Nat × Nat × AsyncOp)) (i rank : Nat) (s : State) : Eng Nat :=
  if rank = c.g.self then readElem s o c.td [c.p1.toNat + i]
  else
    let m := c.g.members.getD rank { pkg := 0, slice := 0, addr := 0 }
    let size := (descFmt c.td).width / 8
    let ia := m.addr.toNat + (firstElem c ps rank + i) * size
    match translate2 s (dieUnit o.core) o.slice ia .read with
    | .error .waits => .waits
    | .error (.fail st k a) => .fails { err := trOpErr (.fail st k a), addr := BitVec.ofNat 64 ia, ia := some a }
    | .error (.poison tag) => .fails { err := 12, addr := BitVec.ofNat 64 ia, tag := tag }
    | .ok (k, s1) => windowElem s1 o ps rank k size ia

/-- The elements, counted from the region's first, that this member's result writes (07 R163): all, or for a reduce-scatter its own
part. -/
def collTargets (code count n self : Nat) : List Nat :=
  if code = 2 then (List.range (count / n)).map (fun i => self * (count / n) + i) else List.range count

/-- One element of a member's result (07 R163), with its events. -/
def collElem (o : AsyncOp) (c : CollOp) (ps : List (Nat × Nat × AsyncOp)) (i : Nat) (s : State) : Eng (Nat × Events) :=
  let n := c.g.members.length
  let code := bits c.p0.toNat 3 0
  let one := fun (r : Nat) => (collRead o c ps i r s).andThen fun x s1 => .ok (x, []) s1
  if code = 4 then one (bits c.p0.toNat 15 10)
  else if code = 3 then
    if c.p2.toNat % n = 0 then one (i / (c.p2.toNat / n))
    else .ok (Config.gathered s.fresh i % 2 ^ (descFmt c.td).width, []) { s with fresh := s.fresh + 1 }
  else (engMap (fun r s => collRead o c ps i r s) (List.range n) s).andThen fun xs s1 =>
    .ok (collReduce (code == 1) (descFmt c.td) xs) s1

/-- The result elements of a COLL written one after another (07 R163). -/
def collWrites (o : AsyncOp) (td : Desc) (first : Nat) : List (Nat × Nat) → State → Option (State × Option OpErr)
  | [], s => some (s, none)
  | (i, v) :: t, s =>
    match writeElem s o td [first + i] v with
    | .waits => none
    | .fails e => some (s, some e)
    | .ok _ s1 => collWrites o td first t s1

/-- Steps of a COLL (07 R163): an exchange of at most 4 KiB with each other member (log 45). -/
def collSteps (td : Desc) (p2 : DWord) (n : Nat) : Nat := max 1 ((n - 1) * ((p2.toNat * ((descFmt td).width / 8) + 4095) / 4096))

/-- Where an operation stands for its partners: they are seen from its slice too. -/
def partnersOf (s : State) (o : AsyncOp) : List (Nat × Nat × AsyncOp) :=
  match collOf o with
  | none => []
  | some c => presentPartners s o c

/-- What one member's result is, before anything is written: elements with their values, and the events. -/
def collResult (s : State) (o : AsyncOp) (c : CollOp) : Eng (List (Nat × Nat) × Events) :=
  let is := collTargets (bits c.p0.toNat 3 0) c.p2.toNat c.g.members.length c.g.self
  (engMap (collElem o c (partnersOf s o)) is s).andThen fun vs s1 => .ok (is.zip (vs.map (fun v => v.1)), vs.flatMap (fun v => v.2)) s1

/-- The results of some members of this module, all read before one is written; none while a port does not answer. -/
def collResults : List (Nat × AsyncOp) → State → Option (State × List (Nat × AsyncOp × Except OpErr (List (Nat × Nat) × Events)))
  | [], s => some (s, [])
  | (id, o) :: t, s =>
    match collOf o with
    | none => collResults t s
    | some c =>
      match collResult s o c with
      | .waits => none
      | .fails e => (collResults t s).map (fun r => (r.1, (id, o, .error e) :: r.2))
      | .ok v s1 => (collResults t s1).map (fun r => (r.1, (id, o, .ok v) :: r.2))

/-- One member's result written, and its operation finished (07 R163, R166); none while a port does not answer. -/
def collEnd (s : State) (r : Nat × AsyncOp × Except OpErr (List (Nat × Nat) × Events)) : Option State :=
  match r.2.2, collOf r.2.1 with
  | .error e, _ => some (finishOp s r.1 r.2.1 (some e))
  | .ok _, none => some s
  | .ok v, some c =>
    match collWrites r.2.1 c.td c.p1.toNat v.1 s with
    | none => none
    | some (s1, none) => some (finishOp s1 r.1 { r.2.1 with progress := r.2.1.progress + 1, events := r.2.1.events ++ v.2 } none)
    | some (s1, some e) => some (finishOp s1 r.1 { r.2.1 with events := r.2.1.events ++ v.2 } (some e))

/-- The last step of a COLL (log 45): every contribution of the members here is read, then each of them has its result. -/
def collFinish (s : State) (ms : List (Nat × AsyncOp)) : Option State :=
  match collResults ms s with
  | none => none
  | some (s1, rs) => rs.foldl (fun r x => r.bind (fun s => collEnd s x)) (some s1)

/-- The last exchange of an operation is all that is left. -/
def atLast (o : AsyncOp) : Bool :=
  match collOf o with
  | none => false
  | some c => decide (collSteps c.td c.p2 c.g.members.length ≤ o.progress + 1)

/-- An exchange of an operation all of whose members have joined (07 R163): the next step, or the end, which waits for the partners to be as
far. -/
def collAdvance (s : State) (id : Nat) (o : AsyncOp) (ps : List (Nat × Nat × AsyncOp)) : Option State :=
  if !atLast o then some (putOp s id { o with progress := o.progress + 1 })
  else if ps.all (fun p => atLast p.2.2 && opRuns s p.2.2) then collFinish s ((id, o) :: ps.map (fun p => p.2))
  else some (putOp s id o)

/-- COLL_STEP (07 R163; 11 R272): the first step joins; the others follow once every member has joined, as agree and sameKey say of the
members of other packages. Members that disagree, or contributions under two key generations, fail the operation on every member. A group
of one has no other member to disagree with. -/
def execCollStep (op : Nat) (agree sameKey : Bool) (s : State) : Out :=
  opStep s op fun o =>
    match collOf o with
    | none => none
    | some c =>
      if !opRuns s o then none
      else
        let ps := presentPartners s o c
        let alone := decide (c.g.members.length ≤ 1)
        let s1 := noteCut s op o
        if !alone && (!agree || ps.any (fun p => !(collOf p.2.2).any (collAgree c))) then some (failAll s1 op o ps 9)
        else if !alone && (!sameKey || rotated s o c || ps.any (fun p => !sameKeys s c p.2.2)) then some (failAll s1 op o ps 11)
        else if alone || (o.joined && (partners s o c).isSome && ps.all (fun p => p.2.2.joined)) then collAdvance s1 op o ps
        else some (putOp s1 op { o with joined := true })

/-- Every member of the group is here and has joined (07 R163). -/
def allJoined (s : State) (o : AsyncOp) (c : CollOp) : Bool :=
  decide ((localMembers s c).length + 1 = c.g.members.length) &&
    match partners s o c with
    | none => false
    | some ps => ps.all (fun p => p.2.2.joined)

/-- COLL_TIMEOUT (07 R163): it counts from the first step until every member has joined, which no member has seen before its first exchange;
a group of one has no one to wait for. -/
def execCollTimeout (op : Nat) (s : State) : Out :=
  opStep s op fun o =>
    match collOf o with
    | none => none
    | some c =>
      if !opRuns s o || c.g.timeout == 0 || decide (c.g.members.length ≤ 1) || !o.joined || o.progress != 0 || allJoined s o c ||
          (presentPartners s o c).any (fun p => p.2.2.progress != 0) then none
      else some (failAll s op o (presentPartners s o c) 10)

end Sys2Proof.Machine
end

