-- ==== Sys2Proof/Machine/Control.lean ====
section
/-!
DEFINITION. Control flow (02 R28-R37; 13 R308, R309, R313, R314, R322; 14 R329, R330, R337, R357-R359; 15 R365), barriers, and the
instructions that trap.
-/
namespace Sys2Proof.Machine

/-- A branch target (04 R70): the instruction's address and a signed offset in words. -/
def branchTarget {n : Nat} (w : Warp) (o : BitVec n) : DWord := pathPc w + o.signExtend 64 * 4

/-- The warp after an instruction that moves, blocks or ends lanes (02 R29, R31): the path that goes on, then the rejoins that
are complete. -/
def flow (w : Warp) : Warp := releaseJoins (settle w)

/-- The lanes of the path whose rejoin register j is poisoned (03 R54). -/
def poisonedJ (w : Warp) (j : Nat) : LaneMask :=
  w.path &&& maskOf (fun l => w.wtPoison.contains (joinWord j l) || w.wtPoison.contains (joinWord j l + 1))

/-- JENR (14 R329): the path's lanes enrolled in register j with a join PC; the words written carry no poison (03 R54). -/
def enrol (w : Warp) (j : Nat) (pc : DWord) : Warp :=
  { w with j := (lanesOf w.path).foldl (fun t l => tset t (j * 64 + l) pc) w.j
           wtPoison := w.wtPoison.filter (fun k => !(lanesOf w.path).any (fun l => k == joinWord j l || k == joinWord j l + 1)) }

/-- JENR (14 R329). -/
def execJenr (j : BitVec 3) (o : BitVec 21) (s : State) : Out :=
  withCx s fun c => c.retire (flow (advance 4 (enrol (bump c.w) j.toNat (branchTarget c.w o)))) []

/-- The lanes of the path that a JWAIT at the path's PC blocks (14 R329). -/
def arrives (w : Warp) (j : Nat) : LaneMask := w.path &&& enrolled w j (pathPc w)

/-- Some lanes blocked. -/
def blockLanes (w : Warp) (m : LaneMask) (b : Block) : Warp :=
  { w with blocks := (lanesOf m).foldl (fun t l => tset t l b) w.blocks }

/-- JWAIT (14 R329): enrolled lanes block here, the others pass. -/
def execJwait (j : BitVec 3) (s : State) : Out :=
  withCx s fun c =>
    let m := arrives c.w j.toNat
    if poisonedJ c.w j.toNat != 0 then c.fault 0x26 2 0 (poisonedJ c.w j.toNat) else
    c.retire (flow (setPcs (blockLanes (bump c.w) m (.jwait j.toNat (pathPc c.w))) (c.w.path &&& ~~~m) (pathPc c.w + 4))) []

/-- BRV (13 R314): the lanes whose predicate differs from the negate bit branch. -/
def execBrv (p : BitVec 5) (n : BitVec 1) (o : BitVec 19) (s : State) : Out :=
  withCx s fun c =>
    if poisonedTable c.w [] [p.toNat] then c.fault 0x26 2 0 (tableLanes c.w [] [p.toNat])
    else
      let taken := c.w.path &&& (if n = 1 then ~~~readP c.w p.toNat else readP c.w p.toNat)
      let w := setPcs (bump c.w) (c.w.path &&& ~~~taken) (pathPc c.w + 4)
      c.retire (flow (setPcs w taken (branchTarget c.w o))) []

/-- UB's conditions (15 R365): 0 eq, 1 ne, 2 lt.i, 3 ge.i, 4 lt.n, 5 ge.n. -/
def ubHolds (cond : Nat) (a b : DWord) : Bool :=
  match cond with
  | 0 => a == b
  | 1 => a != b
  | 2 => a.slt b
  | 3 => !a.slt b
  | 4 => a.ult b
  | _ => !a.ult b

/-- The whole path moves to an address and retires. -/
def Cx.jump (c : Cx) (w : Warp) (pc : DWord) : Out := c.retire (setPcs w w.path pc) []

/-- UB (15 R365). -/
def execUb (k : BitVec 3) (a b : BitVec 6) (o : BitVec 10) (s : State) : Out :=
  withCx s fun c => c.uchecks [a.toNat, b.toNat]
    (c.jump (bump c.w) (if ubHolds k.toNat (readS c.w a.toNat) (readS c.w b.toNat) then branchTarget c.w o else pathPc c.w + 4))

/-- BRA (13 R313). -/
def execBra (o : BitVec 25) (s : State) : Out := withCx s fun c => c.jump (bump c.w) (branchTarget c.w o)

/-- CALL (13 R313): the link is in s63. -/
def execCall (o : BitVec 25) (s : State) : Out :=
  withCx s fun c => c.jump (writeS (bump c.w) 63 (pathPc c.w + 4)) (branchTarget c.w o)

/-- A jump to the address in an s register (14 R330): misaligned and non-canonical targets fault. -/
def jumpTo (r : Nat) (s : State) : Out :=
  withCx s fun c => c.uchecks [r]
    (let t := readS c.w r
     if t.toNat % 4 != 0 then takeFault c 0x22 0 0 false c.w.path t none
     else if !canonical t then takeFault c 0x23 (2 * 2 + 2 * 16) 0 false c.w.path t none
     else c.jump (bump c.w) t)

/-- JMPI (14 R330). -/
def execJmpi (a : BitVec 6) (s : State) : Out := jumpTo a.toNat s

/-- RET is JMPI s63 (14 R330). -/
def execRet (s : State) : Out := jumpTo 63 s

/-- A team's barrier. -/
def getBar (t : Team) (b : Nat) : Bar := tget {} t.bars b

/-- The threads of a team that have not exited (02 R36). -/
def liveThreads (s : State) (core team : Nat) : Nat :=
  ((getCore s core).warps.map (fun w => if w.2.team = team then countLanes (liveLanes w.2) else 0)).sum

/-- A thread's number in its team (02 R19). -/
def threadOf (w : Warp) (l : Nat) : Nat := w.warpix * w.grant + l

/-- An arrival of a thread in the phase in progress; the first sets its mode and expected count (13 R308). -/
def arriveBar (b : Bar) (thread n : Nat) : Bar :=
  let b1 := if b.count = 0 then { b with whole := n == 0, expected := n } else b
  { b1 with count := b1.count + 1, arrivals := tset b1.arrivals thread (tget 0 b1.arrivals thread + 1) }

/-- The phase in progress is complete (02 R36), with live threads not exited. -/
def barComplete (b : Bar) (live : Nat) : Bool := b.count != 0 && decide ((if b.whole then live else b.expected) ≤ b.count)

/-- The next phase (02 R36). -/
def flipBar (b : Bar) : Bar := { b with phase := !b.phase, count := 0, arrivals := [] }

/-- Lanes blocked at a barrier become runnable (02 R36): the completion of their wait orders loads (03 R48). -/
def wakeLanes (w : Warp) (b : Nat) : Warp :=
  { w with blocks := tkeep w.blocks (fun _ k => k != .bar b), bound := if w.blocks.any (fun e => e.2 == .bar b) then [] else w.bound }

/-- The lanes of a team blocked at a barrier become runnable (02 R36). -/
def wakeTeam (s : State) (core team b : Nat) : State :=
  putCore s core { getCore s core with
    warps := tmap (getCore s core).warps (fun _ w => if w.team = team then wakeLanes w b else w) }

/-- The lanes of an instruction arrive one after another (13 R308). Gives the barrier, the lanes whose phase has not completed, and
whether some phase did. -/
def arriveLanes (w : Warp) (live n : Nat) : List Nat → Bar × LaneMask × Bool → Bar × LaneMask × Bool
  | [], r => r
  | l :: t, (b, wait, woke) =>
    let b1 := arriveBar b (threadOf w l) n
    if barComplete b1 live then arriveLanes w live n t (flipBar b1, 0, true)
    else arriveLanes w live n t (b1, wait ||| oneLane l, woke)

/-- The checks of BARARR and BARSYNC (13 R309). -/
def barRefuses (t : Team) (b : Bar) (explicit : Bool) (n : DWord) : Bool :=
  (explicit && (n == 0 || decide (t.threads < n.toNat))) ||
    (b.count != 0 && (explicit == b.whole || (explicit && b.expected != n.toNat)))

/-- BARARR and BARSYNC (13 R308, R309): the path's lanes arrive, and with wait set those whose phase has not completed block. -/
def barArrive (a b : Nat) (wait : Bool) (s : State) : Out :=
  withCx s fun c => c.uchecks [a]
    (let n := readS c.w a
     let old := getBar c.t b
     if barRefuses c.t old (a != 0) n then c.illegalOperand 3 c.w.path
     else
       let live := liveThreads c.s c.core c.w.team
       let (bar, left, woke) := arriveLanes c.w live n.toNat (lanesOf c.w.path) (old, 0, false)
       let s1 := putTeam c.s c.core c.w.team { c.t with bars := tset c.t.bars b bar }
       let s2 := if woke then wakeTeam s1 c.core c.w.team b else s1
       let w0 := if wait && woke then orderLoads (bump c.w) else bump c.w
       let w1 := advance 4 (if woke then wakeLanes w0 b else w0)
       c.retireIn s2 (flow (if wait then blockLanes w1 left (.bar b) else w1)))

/-- BARARR (13 R308). -/
def execBararr (a : BitVec 6) (b : BitVec 4) (s : State) : Out := barArrive a.toNat b.toNat false s

/-- BARSYNC (13 R308). -/
def execBarsync (a : BitVec 6) (b : BitVec 4) (s : State) : Out := barArrive a.toNat b.toNat true s

/-- BARWAIT (13 R308): the path's lanes block without arriving; the count register is not read (13 R307). -/
def execBarwait (_a : BitVec 6) (b : BitVec 4) (s : State) : Out :=
  withCx s fun c => c.retire (flow (blockLanes (advance 4 (bump c.w)) c.w.path (.bar b.toNat))) []

/-- One thread's exit at one barrier (02 R36): a whole-team phase loses the thread's arrivals. -/
def exitBar (b : Bar) (thread : Nat) : Bar :=
  if b.whole && b.count != 0 then { b with count := b.count - tget 0 b.arrivals thread, arrivals := tdel b.arrivals thread } else b

/-- One thread's exit at every barrier of its team (02 R36, R37): phases that it leaves complete end, and their lanes wake. -/
def exitThread (core team thread live : Nat) (s : State) : State :=
  (getTeam s core team).bars.foldl (fun s e =>
    let b := exitBar (getBar (getTeam s core team) e.1) thread
    let done := b.whole && barComplete b live
    let t := getTeam s core team
    let s1 := putTeam s core team { t with bars := tset t.bars e.1 (if done then flipBar b else b) }
    if done then wakeTeam s1 core team e.1 else s1) s

/-- The threads of some lanes exit in ascending order (13 R322). -/
def exitThreads (c : Cx) : List Nat → Nat → State → State
  | [], _, s => s
  | l :: t, live, s => exitThreads c t (live - 1) (exitThread c.core c.w.team (threadOf c.w l) (live - 1) s)

/-- The warp after its lanes exit: a quiesce handler that has lost every lane leaves it held (10 R243). -/
def exitLanes (w : Warp) (m : LaneMask) : Warp :=
  let w1 := { w with exited := w.exited ||| m }
  if w1.inQuiesce && w1.handlers &&& ~~~w1.exited == 0 then { w1 with held := true } else w1

/-- EXIT (13 R322): the active lanes exit, the others go on. -/
def execExit (q : Option APre) (s : State) : Out :=
  withCx s fun c =>
    let act := activeA c.w q
    c.vchecks act 0 [] [] [] [] (guardRegA q)
      (let s1 := exitThreads c (lanesOf act) (liveThreads c.s c.core c.w.team) c.s
       let blocks := ((getWarp s1 c.core c.slot).map (fun w => w.blocks)).getD c.w.blocks
       let w := setPcs { bump c.w with blocks := blocks } (c.w.path &&& ~~~act) (pathPc c.w + BitVec.ofNat 64 (lenOf q))
       c.retireIn s1 (flow (exitLanes w act)))

/-- NOP (14 R337). -/
def execNop (s : State) : Out := withCx s fun c => c.retire (advance 4 (bump c.w)) []

/-- TRAP (14 R357). -/
def execTrap (k : BitVec 13) (s : State) : Out := withCx s fun c => takeTrap c 1 k.toNat c.w.path id

/-- BKPT (13 R312). -/
def execBkpt (s : State) : Out := withCx s fun c => takeTrap c 2 0 c.w.path id

/-- A word is a prefix or a ULIT, so that TRET.skip steps over a pair (10 R227). -/
def isPair (w : Nat) : Bool := isPrefixWord w || w / 2 ^ 25 == 0x47

/-- TRET (10 R227, 14 R359): with skip it resumes past the instruction at TRAPPC, whose word it fetches. -/
def execTret (k : BitVec 1) (s : State) : Out :=
  withCx s fun c =>
    if !c.w.tm then c.fault 0x20 4 0 c.w.path
    else if k = 0 then c.retire (leaveHandler (bump c.w) c.w.trapPc) []
    else
      match fetchWord c.s c.core c.w.slice c.w.ctx c.w.trapPc with
      | .waits => c.stall
      | .fails f => takeFault { c with s := tellTag c.s c.w.slice f.tag } f.code f.sub 0 false c.w.path f.addr f.ia
      | .word x s1 => c.retireIn s1 (leaveHandler (bump c.w) (c.w.trapPc + if isPair x then 8 else 4))

/-- A word that is no legal instruction (04 R68, R75; 10 R220, R222): an illegal-instruction fault with its SUB. -/
def execIllegalInstruction (sub : Nat) (s : State) : Out := withCx s fun c => c.fault 0x20 sub 0 c.w.path

end Sys2Proof.Machine
end

