-- ==== Sys2Proof/Machine/CrossLane.lean ====
section
/-!
DEFINITION. The cross-lane instructions (02 R33-R35; 13 R311; 14 R344; 16 R390, R405, R409, R411).
-/
namespace Sys2Proof.Machine

/-- The checks of a cross-lane instruction, in this order (log 29): the allotment (03 R55), the width trap (02 R34), the lane
immediate of BCAST (13 R311), poison (03 R54). The first group is the destination; groups depends on the segment width. -/
def crossOp (q : Option APre) (seg : Nat) (groups : Nat → List (Nat × Nat)) (imm : Nat) (srcV srcS srcP : List Nat)
    (k : Cx → Nat → Out) (s : State) : Out :=
  withCx s fun c =>
    let act := activeA c.w q
    let S := segWidth c.w c.t seg
    if !(groups S).all (fun g => groupOk c.w g.1 g.2) then c.illegalOperand 0 act
    else if c.w.grant < S then takeTrap c 5 S act id
    else if S ≤ imm then c.illegalOperand 3 act
    else c.vchecks act (zeroedA c.w q) (((groups S).take 1).flatMap (fun g => groupRegs g.1 g.2)) [] srcV srcS (guardRegA q ++ srcP) (k c S)

/-- A register of each active lane written by a cross-lane instruction. -/
def crossWrite (c : Cx) (q : Option APre) (d : Nat) (f : Nat → Word) (ev : Events) : Out :=
  c.retire (advance (lenOf q) (writeV (bump c.w) d (activeA c.w q) (zeroedA c.w q) f)) ev

/-- The value of another lane, or the lane's own where that lane is not active (02 R35). -/
def fromLane (c : Cx) (q : Option APre) (a l : Nat) (src : Option Nat) : Word :=
  match src with
  | none => readLane c.w a l
  | some k => if (activeA c.w q).getLsbD k then readLane c.w a k else readLane c.w a l

/-- The source lane of SHFL (14 R344): modes 0 idx, 1 up, 2 down, 3 xor. -/
def shflSource (mode S l k : Nat) : Option Nat :=
  let base := l / S * S
  match mode with
  | 0 => if k < S then some (base + k) else none
  | 1 => if k ≤ l - base then some (l - k) else none
  | 2 => if k < base + S - l then some (l + k) else none
  | _ => if k < S then some (l ^^^ k) else none

/-- SHFL (14 R343, R344). -/
def execShfl (q : Option APre) (d a b : BitVec 7) (g m : BitVec 2) (s : State) : Out :=
  crossOp q g.toNat (fun _ => [(d.toNat, 1), (a.toNat, 1), (b.toNat, 1)]) 0 [a.toNat, b.toNat] [] []
    (fun c S => crossWrite c q d.toNat
      (fun l => fromLane c q a.toNat l (shflSource m.toNat S l (readLane c.w b.toNat l).toNat)) []) s

/-- BCAST (13 R310, R311). -/
def execBcast (q : Option APre) (d a i : BitVec 7) (g : BitVec 2) (s : State) : Out :=
  crossOp q g.toNat (fun _ => [(d.toNat, 1), (a.toNat, 1)]) i.toNat [a.toNat] [] []
    (fun c S => crossWrite c q d.toNat (fun l => fromLane c q a.toNat l (some (l / S * S + i.toNat))) []) s

/-- Two values of a reduction combined; one that is absent gives the other (16 R409). -/
def combineOpt (f : Nat → Nat → Nat × Events) : Option Nat → Option Nat → Option Nat × Events
  | none, y => (y, [])
  | some x, none => (some x, [])
  | some x, some y => (some (f x y).1, (f x y).2)

/-- One level of the reduction tree (16 R409): neighbours combined. -/
def redLevel (f : Nat → Nat → Nat × Events) : List (Option Nat) → List (Option Nat) × Events
  | x :: y :: t =>
    let (z, ev) := combineOpt f x y
    let (zs, evs) := redLevel f t
    (z :: zs, ev ++ evs)
  | l => (l, [])

/-- The levels of the reduction tree over a segment (16 R409). -/
def redTree (f : Nat → Nat → Nat × Events) : Nat → List (Option Nat) → Option Nat × Events
  | 0, l => (l.head?.join, [])
  | n + 1, l =>
    let (l', ev) := redLevel f l
    let (z, evs) := redTree f n l'
    (z, ev ++ evs)

/-- The combination of VRED (16 R408, R409): modes 0 add.f32, 1 add.i32, 2 max.f32, 3 min.f32. -/
def redCombine (nmode : Word) (mode x y : Nat) : Nat × Events :=
  match mode with
  | 0 => opAdd .f32 (nmodeRm nmode .f32) (nmodeSat nmode .f32) x y
  | 1 => ((x + y) % 2 ^ 32, [])
  | 2 => (opMinMax true x y, [])
  | _ => (opMinMax false x y, [])

/-- The reduction of each segment of the warp, from segment 0 up (16 R409). -/
def redSegments (c : Cx) (q : Option APre) (a mode S : Nat) : List (Option Nat × Events) :=
  (List.range (64 / S)).map (fun k => redTree (redCombine c.w.nmode mode) (Nat.log2 S)
    ((List.range S).map (fun i => if (activeA c.w q).getLsbD (k * S + i) then some (readLane c.w a (k * S + i)).toNat else none)))

/-- VRED (16 R408, R409). -/
def execVred (q : Option APre) (d a : BitVec 7) (g m : BitVec 2) (s : State) : Out :=
  crossOp q g.toNat (fun _ => [(d.toNat, 1), (a.toNat, 1)]) 0 [a.toNat] (if m = 0 then [nmodeWord] else []) []
    (fun c S =>
      let rs := redSegments c q a.toNat m.toNat S
      crossWrite c q d.toNat (fun l => BitVec.ofNat 32 ((rs.getD (l / S) (none, [])).1.getD 0)) (rs.flatMap (fun r => r.2))) s

/-- A running sum over the active lanes of a segment (16 R411): modes 0 inclusive add.f32, 1 inclusive add.i32, 2 exclusive
add.i32. -/
def scanLanes (nmode : Word) (mode : Nat) : Option Nat → List (Nat × Nat) → Tbl Nat × Events
  | _, [] => ([], [])
  | acc, (l, x) :: t =>
    let (sum, ev) := match acc with
      | none => (if mode = 0 ∧ (valueOf .f32 x).isNan then Fmt.cnan .f32 else x, [])
      | some y => redCombine nmode (if mode = 0 then 0 else 1) y x
    let (vs, evs) := scanLanes nmode mode (some sum) t
    ((l, if mode = 2 then acc.getD 0 else sum) :: vs, ev ++ evs)

/-- The running sums of each segment of the warp (16 R411). -/
def scanSegments (c : Cx) (q : Option APre) (a mode S : Nat) : List (Tbl Nat × Events) :=
  (List.range (64 / S)).map (fun k => scanLanes c.w.nmode mode none
    (((lanesOf (activeA c.w q)).filter (fun l => l / S == k)).map (fun l => (l, (readLane c.w a l).toNat))))

/-- VSCAN (16 R411). -/
def execVscan (q : Option APre) (d a : BitVec 7) (g m : BitVec 2) (s : State) : Out :=
  crossOp q g.toNat (fun _ => [(d.toNat, 1), (a.toNat, 1)]) 0 [a.toNat] (if m = 0 then [nmodeWord] else []) []
    (fun c S =>
      let rs := scanSegments c q a.toNat m.toNat S
      crossWrite c q d.toNat (fun l => BitVec.ofNat 32 (tget 0 (rs.getD (l / S) ([], [])).1 l)) (rs.flatMap (fun r => r.2))) s

/-- What VOTE gives a lane (16 R405): 0 ballot (its low word), 1 any, 2 all, 3 count; T is the active lanes with the predicate. -/
def voteValue (mode S base : Nat) (act T : LaneMask) : Nat :=
  let seg := lanesBelow S <<< base
  let t := T &&& act &&& seg
  match mode with
  | 0 => (t >>> base).toNat % 2 ^ 32
  | 1 => if t != 0 then 1 else 0
  | 2 => if t == act &&& seg then 1 else 0
  | _ => countLanes t

/-- VOTE (16 R404, R405): a ballot over 64 lanes fills a pair. -/
def execVote (q : Option APre) (d : BitVec 7) (p : BitVec 5) (g m : BitVec 2) (s : State) : Out :=
  crossOp q g.toNat (fun S => [(d.toNat, if m = 0 ∧ S = 64 then 2 else 1)]) 0 [] [] [p.toNat]
    (fun c S =>
      let act := activeA c.w q
      let T := readP c.w p.toNat
      let w1 := writeV (bump c.w) d.toNat act (zeroedA c.w q) (fun l => BitVec.ofNat 32 (voteValue m.toNat S (l / S * S) act T))
      let w2 := if m = 0 ∧ S = 64 then
          writeV w1 (d.toNat + 1) act (zeroedA c.w q) (fun _ => BitVec.ofNat 32 ((T &&& act).toNat / 2 ^ 32))
        else w1
      c.retire (advance (lenOf q) w2) []) s

end Sys2Proof.Machine
end

