-- ==== Sys2Proof/Machine/Descriptors.lean ====
section
/-!
DEFINITION. The instructions on the descriptor table (07 R153, R157; 14 R354-R356).
-/
namespace Sys2Proof.Machine

/-- Word k of a descriptor (07 R154). -/
def descWord (d : Desc) (k : Nat) : DWord := d.extractLsb' (64 * k) 64

/-- Word k of a descriptor replaced (07 R154). -/
def setDescWord (d : Desc) (k : Nat) (x : DWord) : Desc :=
  d - (descWord d k).setWidth 512 <<< (64 * k) + x.setWidth 512 <<< (64 * k)

/-- The table entry of the running warp's context replaced. -/
def Cx.putDesc (c : Cx) (td : Nat) (d : Desc) : State := Sys2Proof.Machine.putDesc c.s c.w.slice c.w.ctx td d

/-- TDSET (14 R354). -/
def execTdset (t : BitVec 8) (k : BitVec 3) (r : BitVec 6) (s : State) : Out :=
  withCx s fun c => c.uchecks [r.toNat]
    (c.retireIn (c.putDesc t.toNat (setDescWord (c.desc t.toNat) k.toNat (readS c.w r.toNat))) (advance 4 (bump c.w)))

/-- TDGET (14 R354). -/
def execTdget (t : BitVec 8) (k : BitVec 3) (r : BitVec 6) (s : State) : Out :=
  withCx s fun c => c.retire (advance 4 (writeS (bump c.w) r.toNat (descWord (c.desc t.toNat) k.toNat))) []

/-- TDINV (14 R355). -/
def execTdinv (t : BitVec 8) (s : State) : Out :=
  withCx s fun c => c.retireIn (c.putDesc t.toNat 0) (advance 4 (bump c.w))

/-- TDINV.all (14 R355). -/
def execTdinvAll (s : State) : Out :=
  withCx s fun c =>
    c.retireIn (putCtx c.s c.w.slice c.w.ctx { getCtx c.s c.w.slice c.w.ctx with td := [] }) (advance 4 (bump c.w))

/-- TDPOOL (14 R356). -/
def execTdpool (t : BitVec 8) (i : BitVec 17) (s : State) : Out :=
  withCx s fun c =>
    if c.t.pool = 0 then c.illegalOperand 3 c.w.path
    else c.loads true [(0, c.t.pool + i.setWidth 64 * 64)] 64 none 0 fun c s1 vs =>
      c.retireLoad true (Sys2Proof.Machine.putDesc s1 c.w.slice c.w.ctx t.toNat
        (BitVec.ofNat 512 (bytesNat ((tfind vs 0).map (fun v => v.bytes)|>.getD [])))) (advance 4 (bump c.w)) c.w.path vs none

end Sys2Proof.Machine
end

