-- ==== Sys2Proof/Machine/Float.lean ====
section
/-!
DEFINITION. The FP32 instructions of major 0x09 (15 R387, R388): one rounding of the exact result (05 R102), under the prefix overrides or
NMODE (05 R103).
-/
namespace Sys2Proof.Machine

/-- VFADD (15 R387). -/
def execVfadd (q : Option APre) (d a b : BitVec 7) (s : State) : Out :=
  vectorOp q d.toNat [a.toNat, b.toNat] (fun c l => opAdd .f32 (effRm c.w.nmode q .f32) (effSat c.w.nmode q .f32) (readLane c.w a.toNat l).toNat (readLane c.w b.toNat l).toNat) s

/-- VFSUB (15 R387). -/
def execVfsub (q : Option APre) (d a b : BitVec 7) (s : State) : Out :=
  vectorOp q d.toNat [a.toNat, b.toNat] (fun c l => opSub .f32 (effRm c.w.nmode q .f32) (effSat c.w.nmode q .f32) (readLane c.w a.toNat l).toNat (readLane c.w b.toNat l).toNat) s

/-- VFMUL (15 R387). -/
def execVfmul (q : Option APre) (d a b : BitVec 7) (s : State) : Out :=
  vectorOp q d.toNat [a.toNat, b.toNat] (fun c l => opMul .f32 (effRm c.w.nmode q .f32) (effSat c.w.nmode q .f32) (readLane c.w a.toNat l).toNat (readLane c.w b.toNat l).toNat) s

/-- VFFMA (15 R387): the addend is the fourth operand (04 R77). -/
def execVffma (q : Option APre) (d a b : BitVec 7) (s : State) : Out :=
  vectorOp q d.toNat [a.toNat, b.toNat, fourth q d.toNat]
    (fun c l => opFma .f32 (effRm c.w.nmode q .f32) (effSat c.w.nmode q .f32) (readLane c.w a.toNat l).toNat (readLane c.w b.toNat l).toNat (readLane c.w (fourth q d.toNat) l).toNat) s

/-- VFMIN (15 R388). -/
def execVfmin (q : Option APre) (d a b : BitVec 7) (s : State) : Out :=
  vectorPure q d.toNat [a.toNat, b.toNat] (fun c l => BitVec.ofNat 32 (opMinMax false (readLane c.w a.toNat l).toNat (readLane c.w b.toNat l).toNat)) s

/-- VFMAX (15 R388). -/
def execVfmax (q : Option APre) (d a b : BitVec 7) (s : State) : Out :=
  vectorPure q d.toNat [a.toNat, b.toNat] (fun c l => BitVec.ofNat 32 (opMinMax true (readLane c.w a.toNat l).toNat (readLane c.w b.toNat l).toNat)) s

end Sys2Proof.Machine
end

