-- ==== Sys2Proof/Machine/Governor.lean ====
section
/-!
DEFINITION. The power governors (01 R11, R12; 06 R140, R436; 07 R161; 11 R273): requests, grants and the wait limit. Powers are exact
rational numbers of µW; the choice of a grant changes only when an operation goes on.
-/
namespace Sys2Proof.Machine

/-- A sensor's value in 1/256 °C, if it has a reading (01 R13). -/
def tempOf (s : State) (i : Nat) : Option Int :=
  let x := tget {} s.sensors i
  if x.valid then some x.value.toInt else none

/-- The temperature sensors that act on a die with their throttle and permit-stop levels in °C (01 R12, R13). -/
def dieSensors (die : Nat) : List (Nat × Nat × Nat) :=
  (die, 95, 105) :: (List.range 8).map (fun i => (2 + 8 * die + i, 90, 95))

/-- Full degrees above the throttle level, of the hottest sensor of a die (01 R12). DESIGN CHOICE (log 105): of several sensors above their
levels the greatest excess alone counts, and each degree takes the same part of the share. -/
def throttleDegrees (s : State) (die : Nat) : Nat :=
  ((dieSensors die).map (fun x => match tempOf s x.1 with
    | none => 0
    | some t => ((t - (256 * x.2.1 : Nat)) / 256).toNat)).foldl max 0

/-- A sensor of a die is at its permit-stop level (01 R12). -/
def permitStopped (s : State) (die : Nat) : Bool :=
  (dieSensors die).any (fun x => match tempOf s x.1 with
    | none => false
    | some t => decide (((256 * x.2.2 : Nat) : Int) ≤ t))

/-- A die's current share in µW (01 R11, R12): 10 % less for each full degree. -/
def dieShare (s : State) (die : Nat) : Rat := s.shares.getD die 0 * ((10 - throttleDegrees s die : Nat) : Rat) / 10

/-- A slice's permit share on a die (11 R251, R273). -/
def sliceShare (s : State) (sl die : Nat) : Rat :=
  let c := tget {} s.sliceCfg sl
  dieShare s die * ((if die = 0 then bits c.w1.toNat 7 0 else bits c.w1.toNat 15 8 : Nat) : Rat) / 256

/-- The power of an energy in fJ over a span in arithmetic cycles (06 R140), at 4 GHz (01 R9), in µW. -/
def powerOf (energy span : Nat) : Rat := ((energy * 4 : Nat) : Rat) / (span : Rat)

/-- The set that an MXISSUE will fire is a B8 one (06 R140): that of the last WLOAD on its slot that goes before it in the booth, else the
slot's; an empty slot counts as an I4G set (log 26). -/
def firesB8 (s : State) (id : Nat) (o : AsyncOp) (ws : Nat) : Bool :=
  let loads := (earlierOn s (clusterOf o.core) id ws).filterMap (fun e => match e.2.kind with
    | .wload _ d _ _ => some d
    | _ => none)
  match loads.getLast?, tfind (getEngine s (clusterOf o.core)).slots ws with
  | some d, _ => (descFmt d).formsB8
  | none, some x => x.fmt.formsB8
  | none, none => false

/-- The power that an MXISSUE asks for, for its remaining passes (06 R140). -/
def matrixPower (s : State) (id : Nat) (o : AsyncOp) (w : List Word) : Rat :=
  let b8 := firesB8 s id o (blockWord w 2)
  let bf := bits (blockWord w 0) 5 4 == 2
  let n := passTotal w b8 - o.progress
  let f := (if bf then 2 else 1) * (if b8 then 2 else 1)
  let e := 25 * f * 32 * 128 * min (blockWord w 6) (chunkCols b8) * n
  powerOf ((e + 999999) / 1000000 * 1000000) (n * 256 * (if bf then 2 else 1))

/-- The power that an operation asks for (06 R140, 07 R161): a copy's 16 pJ a byte, over a network clock for each 256 bytes. -/
def requestPower (s : State) (id : Nat) (o : AsyncOp) : Rat :=
  match o.kind with
  | .mxissue w _ _ _ _ => matrixPower s id o w
  | _ => powerOf (16000 * bytesMoved o) (2 * ((bytesMoved o + 255) / 256))

/-- PERMIT_REQUEST (06 R140, 07 R161): the request is queued. -/
def execPermitRequest (op : Nat) (s : State) : Out :=
  opStep s op fun o =>
    if o.permit != .none || !needsPermit o || !opRuns s o || (o.cls == 1 && !inBooth s (clusterOf o.core) op) then none
    else some { putOp s op { o with permit := .queued s.nextPermit false (requestPower s op o) } with nextPermit := s.nextPermit + 1 }

/-- A queued request of a die: the operation, its age, whether it has waited the limit, and its power. -/
structure Request where
  op : Nat
  slice : Nat
  prio : Nat
  seq : Nat
  aged : Bool
  power : Rat
  deriving DecidableEq, Repr

/-- A request goes before another (06 R436): higher class, then older. -/
def Request.before (a b : Request) : Bool := decide (b.prio < a.prio ∨ (a.prio = b.prio ∧ a.seq < b.seq))

/-- A request put in its place. -/
def insertRequest (r : Request) : List Request → List Request
  | [] => [r]
  | x :: t => if r.before x then r :: x :: t else x :: insertRequest r t

/-- The queued requests of a die in the order in which the governor considers them (06 R436). -/
def requestsOf (s : State) (die : Nat) : List Request :=
  (s.ops.filterMap (fun e =>
    match e.2.permit with
    | .queued seq aged p =>
      if dieOf e.2.core = die then some { op := e.1, slice := e.2.slice, prio := e.2.prio, seq := seq, aged := aged, power := p } else none
    | .none => none
    | .granted _ _ => none)).foldl (fun l r => insertRequest r l) []

/-- The power of the permits granted on a die, of one slice or of all (06 R436). -/
def grantedPower (s : State) (die : Nat) (sl : Option Nat) : Rat :=
  (s.ops.map (fun e => match e.2.permit with
    | .granted p _ => if dieOf e.2.core = die && (sl == none || sl == some e.2.slice) then p else 0
    | .none => 0
    | .queued _ _ _ => 0)).sum

/-- A request fits (06 R436): the die's share holds it with what is granted, and its slice's share with what is granted to its slice. -/
def fitsOwn (s : State) (die : Nat) (r : Request) : Bool :=
  decide (grantedPower s die none + r.power ≤ dieShare s die ∧ grantedPower s die (some r.slice) + r.power ≤ sliceShare s r.slice die)

/-- A request may borrow the unused share of other slices (06 R436, 11 R273). -/
def fitsBorrowed (s : State) (die : Nat) (r : Request) : Bool :=
  decide (grantedPower s die none + r.power ≤ dieShare s die ∧ r.power ≤ sliceShare s r.slice die)

/-- A request whose power alone passes its slice's share, or the die's, may be granted (06 R436): its slice holds no other permit there and
the die's share holds it, or the die has granted nothing. -/
def fitsAlone (s : State) (die : Nat) (r : Request) : Bool :=
  decide (sliceShare s r.slice die < r.power ∧ grantedPower s die (some r.slice) = 0 ∧ grantedPower s die none + r.power ≤ dieShare s die) ||
    decide (dieShare s die < r.power ∧ grantedPower s die none = 0)

/-- A permit whose power alone exceeded the die's share is out: nothing else is granted there (06 R436). -/
def soleGranted (s : State) (die : Nat) : Bool :=
  s.ops.any (fun e => dieOf e.2.core == die && (match e.2.permit with
    | .granted _ sole => sole
    | .none => false
    | .queued _ _ _ => false))

/-- A request that has waited the limit is not granted behind one of equal or lower class (06 R436). -/
def Request.holdsBack (a r : Request) : Bool := a.aged && a.op != r.op && decide (r.prio ≤ a.prio) && !(r.aged && r.before a)

/-- The requests that may be granted now (06 R436): those that no other holds back; none at the permit-stop level (01 R12). -/
def considered (s : State) (die : Nat) : List Request :=
  if permitStopped s die || soleGranted s die then []
  else (requestsOf s die).filter (fun r => !(requestsOf s die).any (fun a => a.holdsBack r))

/-- The request that the governor grants next (06 R436): one that fits, else one that is too large for its share or borrows. None borrows
while a request waits that fits. -/
def chooseRequest (s : State) (die : Nat) : Option Request :=
  match (considered s die).find? (fitsOwn s die) with
  | some r => some r
  | none => (considered s die).find? (fun r => fitsAlone s die r || (fitsBorrowed s die r && !(requestsOf s die).any (fitsOwn s die)))

/-- PERMIT_GRANT (06 R436). -/
def execPermitGrant (die : Nat) (s : State) : Out :=
  match chooseRequest s die with
  | none => .next s
  | some r => opStep s r.op fun o => some (putOp s r.op { o with permit := .granted r.power (decide (dieShare s die < r.power)) })

/-- PERMIT_WAIT_LIMIT (06 R436): the oldest request of the highest class present has waited 65,536 network clocks. -/
def execPermitWaitLimit (die : Nat) (s : State) : Out :=
  match requestsOf s die with
  | [] => .next s
  | r :: _ => opStep s r.op fun o => some (putOp s r.op { o with permit := .queued r.seq true r.power })

end Sys2Proof.Machine
end

