-- ==== Sys2Proof/Machine/Trust.lean ====
section
/-!
DEFINITION. Sessions, attestation and TDISP (11 R267, R268), health reports and keys (11 R265, R271, R276), and UALink routing (11 R278).
-/
namespace Sys2Proof.Machine

/-- The nonce of a session (11 R276; log 17): 0 where there is none. -/
def sessionNonce (x : Option Session) : Nat := ((x.map (fun (y : Session) => y.nonce)).getD 0).toNat

/-- A report signed over its fields and the session's nonce (11 R276; log 17). -/
def signReport (nonce : Nat) (r : Report) : Report := { r with signature := Config.signs (reportFields r ++ natBytes 8 nonce) }

/-- HEALTH_REPORT (11 R276). -/
def execHealthReport (slice : Nat) (s : State) : Out :=
  whenVf s slice
    (let x := getSlice s slice
     let r := signReport (sessionNonce x.session)
       { seq := x.reportSeq, gen := s.layGen, kgen := x.kgen, secVersion := s.fwActive.version, errcnt := x.errcnt, notices := x.noticesSince,
         signature := [] }
     .next (raiseEvent (putSlice s slice { x with report := some r, reportSeq := x.reportSeq + 1, noticesSince := 0 }) slice 6 0 0 0 0
       (BitVec.ofNat 64 x.reportSeq)))

/-- KEY_ROTATION (11 R271): through the tenant's session; refused while a sweep goes on. -/
def execKeyRotation (slice : Nat) (s : State) : Out :=
  let x := getSlice s slice
  whenVf s slice
    (if x.session.isNone || x.sweeping then .next s
     else .next (putSlice s slice { x with kgen := (x.kgen + 1) % 2 ^ 32, sweeping := true }))

/-- KEY_SWEEP_COMPLETE (11 R271). -/
def execKeySweepComplete (slice : Nat) (s : State) : Out :=
  whenOpen s (.next (putSlice s slice { getSlice s slice with sweeping := false }))

/-- MIGRATION_KEY_PROVISION (11 R265): inside the slice's session. -/
def execMigrationKeyProvision (slice : Nat) (key : MigKey) (s : State) : Out :=
  let x := getSlice s slice
  whenVf s slice (if x.session.isNone then .next s else .next (putSlice s slice { x with migKey := some key }))

/-- A TDI after the end of its session (11 R268). -/
def tdiEnd (x : Slice) : Tdi := if x.session.isSome && (x.tdi == .configLocked || x.tdi == .run) then .error else x.tdi

/-- The session of the PF0 of a port, 16 for A and 17 for B (11 R267). -/
def pfSession (s : State) (fn : Nat) : Option Session := (s.pfSessions.getD (fn - 16) none)

/-- The session of the PF0 of a port begun or ended (11 R267). -/
def setPfSession (s : State) (fn : Nat) (x : Option Session) : State := { s with pfSessions := setAt s.pfSessions (fn - 16) x }

/-- The responder's answer (11 R267; log 17): what it says, and its signature over that and the nonce. -/
def signedReply (bs : List Byte) (nonce : Nat) : List Byte := bs ++ Config.signs (bs ++ natBytes 8 nonce)

/-- KEY_EXCHANGE with a VF, or with the PF0 of port A (16) or B (17) (11 R267, R268): a new session, which ends the one before; the responder
signs its answer, which names the session. -/
def execKeyExchange (slice : Nat) (nonce : DWord) (s : State) : Out :=
  let x := getSlice s slice
  let session : Session := { id := s.fresh, nonce := nonce }
  let s1 := { s with fresh := s.fresh + 1, hostReply := signedReply (natBytes 8 s.fresh) nonce.toNat }
  if 16 ≤ slice then whenOpen s (.next (setPfSession s1 slice (some session)))
  else whenVf s slice (.next (putSlice s1 slice { x with tdi := tdiEnd x, session := some session, measured := false }))

/-- The measurement blocks of the module itself (11 R267; log 18): Olsan's image with its security version, the firmware of ringmaster and
engines, and lifecycle with fused minimum. -/
def moduleBlocks (s : State) : List Byte :=
  natBytes 64 s.fwActive.olsan ++ natBytes 8 s.fwActive.version ++ natBytes 64 s.fwActive.engines ++ natBytes 8 s.debugLife.toNat ++
    natBytes 8 s.fwMin

/-- The key generation of a world (11 R270): a slice's, the host world's (16), or the vendor code world's (17). -/
def worldKgen (s : State) (w : Nat) : Nat := if w < 16 then (getSlice s w).kgen else if w = 16 then s.hostKgen else s.codeKgen

/-- The measurement blocks of a VF (11 R267; log 18): the module's, layout, scrub status, key generation, and routing entries without SEND.
Every unit is scrubbed or zeroed before a slice first uses it (01 R15, 11 R253), so the bit of block 5 is 1. -/
def measurements (s : State) (sl : Nat) : List Byte :=
  let x := getSlice s sl
  let c := tget {} s.sliceCfg sl
  let gs := ((granulesOf s sl).map (fun g => 2 ^ g)).sum
  moduleBlocks s ++ [gs, c.w0.toNat, c.w1.toNat, s.layGen, x.scrubGen, x.resets, 1, worldKgen s sl].flatMap (natBytes 8) ++
    x.routing.flatMap (fun e => natBytes 16 (e.2.toNat % 2 ^ 92 + e.2.toNat / 2 ^ 100 * 2 ^ 100))

/-- GET_MEASUREMENTS of a VF, or of a PF0 (11 R267, R268): the blocks, signed. -/
def execGetMeasurements (slice : Nat) (s : State) : Out :=
  let x := getSlice s slice
  if 16 ≤ slice then whenOpen s (.next { s with hostReply := signedReply (moduleBlocks s) (sessionNonce (pfSession s slice)) })
  else
    whenVf s slice (.next { putSlice s slice { x with measured := x.measured || x.session.isSome } with
      hostReply := signedReply (measurements s slice) (sessionNonce x.session) })

/-- LOCK_INTERFACE_REQUEST (11 R268): accepted once measurements have been fetched on the session. -/
def execLockInterfaceRequest (slice : Nat) (s : State) : Out :=
  let x := getSlice s slice
  whenVf s slice
    (if x.tdi == .configUnlocked && x.session.isSome && x.measured then
       .next (putSlice s slice { x with tdi := .configLocked, everLocked := true })
     else .next s)

/-- START_INTERFACE_REQUEST (11 R268, R280): contexts paused by an activation go on. -/
def execStartInterfaceRequest (slice : Nat) (s : State) : Out :=
  let x := getSlice s slice
  whenVf s slice
    (if x.tdi == .configLocked then .next (putSlice s slice { x with tdi := .run, ctxs := tmap x.ctxs (fun _ c => unpauseCtx c) })
     else .next s)

/-- STOP_INTERFACE_REQUEST (11 R268). -/
def execStopInterfaceRequest (slice : Nat) (s : State) : Out :=
  let x := getSlice s slice
  whenVf s slice (.next (putSlice s slice { x with tdi := .configUnlocked }))

/-- The writable fields of a routing entry and those but for SEND (11 R278). -/
def routeMask (send : Bool) : BitVec 128 :=
  BitVec.ofNat 128 (0xFFFFFF * 2 ^ 104 + 0xF * 2 ^ 100 + (if send then 0xFF * 2 ^ 92 else 0) + 0x3F * 2 ^ 52 + (2 ^ 36 - 1) * 2 ^ 16 + 1)

/-- The SEND fields of the entries that use a UALink port sum to at most 256 (11 R278). -/
def sendFits (s : State) (port : Nat) : Bool :=
  decide (((s.slices.flatMap (fun x => x.2.routing)).map
    (fun e => if bitOf (bits e.2.toNat 127 120) port then bits e.2.toNat 99 92 else 0)).sum ≤ 256)

/-- ROUTING_ENTRY_WRITE (11 R268, R278): a write that breaks a port's sum is ignored; one of another field than SEND moves a locked TDI
to ERROR. -/
def execRoutingEntryWrite (slice index : Nat) (value : BitVec 128) (s : State) : Out :=
  let x := getSlice s slice
  let old := tget 0 x.routing index
  let new := (value &&& routeMask true) ||| (old &&& ~~~routeMask true)
  let tdi := if (old &&& routeMask false) != (new &&& routeMask false) && (x.tdi == .configLocked || x.tdi == .run) then .error else x.tdi
  let s1 := putSlice s slice { x with routing := tset x.routing index new, tdi := tdi }
  whenOpen s
    (if 64 ≤ index then .next s
     else if (List.range 8).all (fun p => !bitOf (bits new.toNat 127 120) p || sendFits s1 p) then .next s1 else .next s)

/-- ROUTING_KEY_INSTALL (11 R278): from the tenant's session. -/
def execRoutingKeyInstall (slice index : Nat) (kgen : BitVec 32) (s : State) : Out :=
  let x := getSlice s slice
  let old := tget 0 x.routing index
  let field : BitVec 128 := BitVec.ofNat 128 ((2 ^ 32 - 1) * 2 ^ 60)
  whenVf s slice
    (if x.session.isNone || 64 ≤ index then .next s
     else .next (putSlice s slice { x with routing := tset x.routing index ((old &&& ~~~field) ||| BitVec.ofNat 128 (kgen.toNat * 2 ^ 60)) }))

end Sys2Proof.Machine
end

