-- ==== Sys2Proof/Machine/Physical.lean ====
section
/-!
DEFINITION. Links, sensors, power and the errors of the module's hardware (01 R11-R14; 10 R237; 11 R257, R258, R274, R275).
-/
namespace Sys2Proof.Machine

/-- A port's flag set. -/
def setPort (l : List Bool) (p : Port) (v : Bool) : List Bool := setAt l (portIx p) v

/-- A port's link goes down (11 R249, R258): the takeover delay and the waits of host accesses start; one that is down stays so. -/
def linkGoesDown (s : State) (p : Port) : State :=
  if !portUp s p then s
  else { s with linkUp := setPort s.linkUp p false, linkLong := setPort s.linkLong p false, hostTimeout := setPort s.hostTimeout p false }

/-- The error that PCIe reports on a port's PF0 when its link goes down by surprise (11 R257; log 110). -/
def linkError (p : Port) : Aer := { port := some p, slice := none, fatal := true }

/-- PORT_LINK_DOWN (11 R257, R258). -/
def execPortLinkDown (port : Port) (s : State) : Out :=
  if portUp s port then .next { linkGoesDown s port with aer := s.aer ++ [linkError port] } else .next s

/-- What Olsan does for slices goes on once a port answers, or refuses (11 R258, R264; 12 R288). -/
def workOlsan (s : State) : State := if accepts s then workAllXlate ((List.range 16).foldl workCommand s) else s

/-- PORT_LINK_RETURN (11 R258). -/
def execPortLinkReturn (port : Port) (s : State) : Out :=
  let s1 := { s with linkUp := setPort s.linkUp port true, linkLong := setPort s.linkLong port false,
                     hostTimeout := setPort s.hostTimeout port false,
                     msix0 := s.msix0 ++ s.msix0Waiting.filter (· == port), msix0Waiting := s.msix0Waiting.filter (· != port) }
  if portUp s port then .next s else .next (workOlsan ((List.range 16).foldl sendWaiting s1))

/-- PERST (01 R14): the port's link goes down to retrain, and its function state is reset: its error reports, its waiting messages and its VFs'
MSI-X tables, whose vectors are masked again (log 108); slices keep their contexts. -/
def execPerst (port : Port) (s : State) : Out :=
  let drop := fun (n : Nat) (x : Slice) => if slicePort s n == port then { x with msixTable := [], msixWaiting := [] } else x
  .next { linkGoesDown s port with aer := s.aer.filter (fun e => e.port != some port),
                                   msix0Waiting := s.msix0Waiting.filter (· != port), slices := tmap s.slices drop }

/-- HOST_ACCESS_TIMEOUT (11 R258): what waits on the port is answered as refused until the link returns. -/
def execHostAccessTimeout (port : Port) (s : State) : Out :=
  if portUp s port then .next s else .next (workOlsan { s with hostTimeout := setPort s.hostTimeout port true })

/-- UALINK_PORT_DOWN (11 R274). -/
def execUalinkPortDown (link : Nat) (s : State) : Out := .next { s with ualUp := s.ualUp &&& ~~~(BitVec.ofNat 8 (2 ^ link)) }

/-- A line of a page of host memory, by its host address (11 R258). -/
def inHostPage (page line : Nat) : Bool := isHost line && hostAddr line / 65536 == page

/-- ATS_INVALIDATION (11 R258): every store of the slice that used the old translation reaches its port first. -/
def execAtsInvalidation (slice page : Nat) (s : State) : Out :=
  let mine := (coresOf s slice).filter (fun c => (getCore s c).pend.any (fun e => inHostPage page e.line))
  .next (((drainCores mine s).bind (fun s1 => flushLines s1 slice ((l2Lines s1 slice).filter (inHostPage page)))).getD s)

/-- What a sensor measures (01 R13). -/
def sensorKind (i : Nat) : Nat := if i ≤ 19 then 0 else if i ≤ 23 then 1 else 2

/-- The slices that a sensor's alarm affects (11 R275): those with a granule on its die or stack; all for the module's own. -/
def alarmSlices (s : State) (i : Nat) : List Nat :=
  (List.range 16).filter (fun n => (granulesOf s n).any (fun g =>
    if i ≤ 1 then g / 8 == i else if i ≤ 17 then g == i - 2 else if i ≤ 19 then g / 8 == i - 18 else true))

/-- The levels of a temperature sensor in °C: throttle and trip (01 R12). -/
def sensorLevels (i : Nat) : Option (Nat × Nat) := if i ≤ 1 then some (95, 110) else if i ≤ 17 then some (90, 100) else none

/-- A reading is at or above a level in °C. -/
def atLevel (t : Option Int) (level : Nat) : Bool :=
  match t with
  | none => false
  | some v => decide (((256 * level : Nat) : Int) ≤ v)

/-- An environmental alarm told to the tenants it affects (11 R275). -/
def raiseAlarm (s : State) (i : Nat) : State :=
  (alarmSlices s i).foldl (fun s n => raiseNotice s n { kind := 2, addr := i, cycles := Config.olsanClock s.fresh }) { s with fresh := s.fresh + 1 }

/-- Every context that is not absent. -/
def liveCtxs (s : State) : List (Nat × Nat) :=
  s.slices.flatMap (fun x => x.2.ctxs.filterMap (fun c => if c.2.state = 0 then none else some (x.1, c.1)))

/-- The stop lines of every context raised (01 R12; 11 R274). -/
def stopAll (s : State) (cause : DWord) : State := (liveCtxs s).foldl (fun s c => raiseStop s c.1 c.2 cause) s

/-- A device error (11 R257, R274). -/
def deviceError (s : State) : State :=
  { s with deviceErr := true,
           slices := (List.range 16).foldl (fun t n => tset t n { tget {} t n with tdi := .error }) s.slices,
           aer := s.aer ++ [{ port := some .a, slice := none, fatal := true }, { port := some .b, slice := none, fatal := true }] }

/-- DEVICE_ERROR (11 R274): the first cause of the stops is not given (log 53). -/
def execDeviceError (s : State) : Out :=
  whenOpen s (.next (settleReset (deviceError (stopAll { s with fresh := s.fresh + 1 } (Config.deviceCause s.fresh)))))

/-- The dies without power (01 R12): what they held is gone. -/
def cutPower (s : State) : State :=
  { s with powerLatch := true, cores := [], engines := [], ops := [], tlb := [], l2 := [], llc := [] }

/-- A thermal trip (01 R12; 10 R234): Olsan's own stop record goes into every context's sump. -/
def thermalTrip (s : State) (hbm : Bool) : State :=
  let cause := causeWord 0x2B hbm.toNat 0 true false
  let s1 := (liveCtxs s).foldl (fun s c =>
    (writeRecord s c.1 c.2 { kind := 5, local_ := cause }).getD (loseRecord s c.1 c.2)) (stopAll s cause)
  cutPower (deviceError s1)

/-- A sensor's reading taken (01 R12, R13; 11 R275): an alarm when it fails or passes its throttle level, and the trip, after a device error
too. A failed sensor reads VALUE 0 with its KIND, and counts for no level any more (log 106). -/
def updateSensor (s : State) (i : Nat) (reading : Option (BitVec 24)) : State :=
  let x := tget {} s.sensors i
  let y : Sensor := { seq := (x.seq + 1) % 2 ^ 32, valid := reading.isSome, kind := sensorKind i, value := reading.getD 0 }
  let s1 := { s with sensors := tset s.sensors i y }
  let s2 := if !y.valid && (x.valid || x.seq == 0) then raiseAlarm s1 i else s1
  match sensorLevels i with
  | none => s2
  | some (throttle, trip) =>
    let s3 := if atLevel (tempOf s1 i) throttle && !atLevel (tempOf s i) throttle then raiseAlarm s2 i else s2
    if atLevel (tempOf s1 i) trip && !s.powerLatch then thermalTrip s3 (decide (2 ≤ i)) else s3

/-- SENSOR_UPDATE (01 R13): reserved indices hold nothing. -/
def execSensorUpdate (index : Nat) (reading : Option (BitVec 24)) (s : State) : Out :=
  if 25 ≤ index then .next s else .next (updateSensor s index reading)

/-- POWER_WINDOW_END (01 R11): shares in µW. -/
def execPowerWindowEnd (meanWatts : Nat) (s : State) : Out :=
  if 2600 < meanWatts then .next { s with shares := s.shares.map (fun x => x * 19 / 20) }
  else if meanWatts ≤ 2450 then .next { s with shares := s.shares.map (fun x => min 1450000000 (x * 21 / 20)) }
  else .next s

/-- The slices that an error's line belongs to (11 R274): of a stack, the one that holds it; of host memory or of another package, those whose
ways hold it. -/
def lineOwners (s : State) (line : Nat) : List Nat :=
  if isHbm line then (sliceOfGranule s (line / 2 ^ 36)).toList else (s.l2.filter (fun e => lineOf e.1 == line)).map (fun e => e.1 % 128)

/-- A line found bad (07 R152; 11 R271, R274): it is poisoned, its integrity tag noted where that is what failed, and the error counted in
the owner's log. -/
def badLine (s : State) (l : Nat) (tag : Bool) : State :=
  let s1 := poisonLine s l
  let s2 := { s1 with badTags := if tag then s1.badTags ++ [l] else s1.badTags }
  (lineOwners s l).foldl countDetected s2

/-- A bad line whose error lies in a tag array of its owner's (11 R274): it leaves the ways, and the owner's VF reports it. -/
def badTagArray (s : State) (l : Nat) : State :=
  (lineOwners s l).foldl (fun t sl => noteContained { t with l2 := tdel t.l2 (l + sl) } sl) s

/-- MEMORY_UNCORRECTABLE_ERROR (07 R152; 10 R237; 11 R257, R271, R274): one found at a write-back waits for the line's next write-back; what
kind it is, the spec leaves open (log 54). -/
def execMemoryUncorrectableError (line : Nat) (onWriteBack : Bool) (s : State) : Out :=
  let l := lineOf line
  let s1 := badLine { s with fresh := s.fresh + 1 } l (Config.tagFailed s.fresh)
  if onWriteBack then .next (if s.wbErr.contains l then s else { s with wbErr := s.wbErr ++ [l] })
  else .next (if Config.inTagArray s.fresh then badTagArray s1 l else s1)

end Sys2Proof.Machine
end

