-- ==== Sys2Proof/Machine/Host.lean ====
section
/-!
DEFINITION. Accesses of host agents and of UALink peers (08 R192; 11 R259, R271, R275, R278).
-/
namespace Sys2Proof.Machine

/-- The memory key that a host agent reaches at an address through a port (log 55): host memory, a stack with no slice, or a stack of a
slice whose VF is on that port. -/
def hostKey (s : State) (p : Port) (pa : Nat) : Option Nat :=
  if 2 ^ 51 ≤ pa then some (hostAddrKey p (pa - 2 ^ 51))
  else if !isHbm pa then none
  else
    match sliceOfGranule s (pa / 2 ^ 36) with
    | none => some pa
    | some sl => if slicePort s sl == p then some pa else none

/-- The keys of n bytes from an address, all or none. -/
def hostKeys (s : State) (p : Port) (pa n : Nat) : Option (List Nat) := (List.range n).mapM (fun i => hostKey s p (pa + i))

/-- An access that a host agent may not make (11 R275): the slice that owns the memory is told. -/
def refuseHost (s : State) (pa : Nat) : State :=
  match if isHbm pa then sliceOfGranule s (pa / 2 ^ 36) else none with
  | none => { s with hostReply := [] }
  | some sl => tellViolation { s with hostReply := [] } sl pa

/-- Bytes read at some keys as memory holds them, those of the code world sealed (12 R288); poison among them answers nothing. -/
def replyRead (s : State) (ks : List Nat) : State :=
  { ks.foldl (fun s k => stackTouch s k false) s with
    hostReply := if ks.any (fun k => (tfind s.poison (lineOf k)).isSome) then [] else ks.map (mread s.mem) }

/-- Bytes written at some keys. -/
def writeKeys (s : State) (ks : List Nat) (bs : List Byte) : State :=
  (ks.zip bs).foldl (fun s e => writeHome (stackTouch s e.1 true) (lineOf e.1) [(e.1, e.2)] []) s

/-- An access outside the stream bound to a locked function completes as Unsupported Request, and is counted (11 R259). -/
def countOffStream (s : State) (sl : Nat) : State :=
  let x := getSlice s sl
  let s1 := { s with hostReply := [] }
  if x.tdi != .configLocked && x.tdi != .run then s else countDetected s1 sl

/-- The end of a function's secured session (11 R267, R268): a locked or running TDI moves to ERROR. -/
def endSession (s : State) (sl : Nat) : State :=
  let x := getSlice s sl
  if 16 ≤ sl then setPfSession s sl none else putSlice s sl { x with tdi := tdiEnd x, session := none, measured := false }

/-- HOST_REQUEST (08 R192; 11 R259, R267): nothing arrives while the port's link is down. -/
def execHostRequest (port : Port) (req : HostReq) (s : State) : Out :=
  if !portUp s port || s.powerLatch || s.deviceErr then .next s
  else
    match req with
    | .read pa size =>
      match hostKeys s port pa size with
      | none => .next (refuseHost s pa)
      | some ks => .next (replyRead s ks)
    | .write pa bytes =>
      match hostKeys s port pa bytes.length with
      | none => .next (refuseHost s pa)
      | some ks => .next (writeKeys { s with hostReply := [] } ks bytes)
    | .offStream sl => .next (countOffStream s sl)
    | .endSession sl => .next (endSession s sl)

/-- A refused request is acknowledged negatively (11 R278): no answer. One that asks for memory outside the slice's own is told to it
(11 R275). -/
def refusePeer (s : State) (sl ia : Nat) (e : TrErr) : State :=
  match e with
  | .fail _ 3 _ => tellViolation { s with hostReply := [] } sl ia
  | .poison tag => tellTag { s with hostReply := [] } sl tag
  | .fail _ _ _ | .waits => { s with hostReply := [] }

/-- The address of a peer's access and the right that it needs. -/
def peerTarget : PeerReq → Nat × Acc
  | .read ia _ => (ia, .read)
  | .write ia _ => (ia, .write)
  | .atomic ia _ _ _ _ => (ia, .atomic)

/-- A peer's atomic performed at the home (08 R183, R192; 15 R378), within the release sequence that it continues (08 R184). -/
def peerAtomic (s : State) (k op : Nat) (data swap : BitVec 64) (nmode : Word) : State :=
  let n := atomSize op
  let old := bytesNat (mreadN s.mem k n)
  let marks := (List.range n).filterMap (fun i => (tfind s.marks (k + i)).map (fun m => (k + i, m)))
  let s1 := match (atomResult op old data.toNat swap.toNat (nmodeRm nmode .f32) (nmodeSat nmode .f32)).1 with
    | none => s
    | some v => writeHome s (lineOf k) (byteTbl k (natBytes n v)) marks
  { stackTouch s1 k (atomResult op old data.toNat swap.toNat (nmodeRm nmode .f32) (nmodeSat nmode .f32)).1.isSome with hostReply := natBytes n old }

/-- A peer's access performed at the home (08 R183, R192), which holds the slice's own lines. -/
def peerAccess (s : State) (k : Nat) : PeerReq → State
  | .read _ n => replyRead s ((List.range n).map (k + ·))
  | .write _ bs => writeKeys { s with hostReply := [] } ((List.range bs.length).map (k + ·)) bs
  | .atomic _ op data swap nmode => if isPoisoned s k then { s with hostReply := [] } else peerAtomic s k op data swap nmode

/-- UALINK_REQUEST (07 R173; 08 R192; 11 R278): the receiving slice checks the key, and its stage 2 translates the address. A request under a
key that it does not take comes from another world, and it is told (11 R275; log 116). -/
def execUalinkRequest (slice : Nat) (kgen : BitVec 32) (req : PeerReq) (s : State) : Out :=
  whenVf s slice
    (if !keyTaken s slice kgen.toNat then .next (tellViolation { s with hostReply := [] } slice (peerTarget req).1)
     else
       match peerKey s slice (peerTarget req).1 (peerTarget req).2 with
       | .error e => .next (refusePeer s slice (peerTarget req).1 e)
       | .ok (k, s1) => .next (peerAccess s1 k req))

end Sys2Proof.Machine
end

