-- ==== Sys2Proof/Machine/Integer.lean ====
section
/-!
DEFINITION. The integer instructions of majors 0x01 and 0x03 (15 R372, R375, R381; 16 R400, R401). They wrap modulo 2^32 and count no
event (05 R95).
-/
namespace Sys2Proof.Machine

/-- The high half of a signed product (16 R400). -/
def mulHighSigned (a b : Word) : Word := BitVec.ofInt 32 (a.toInt * b.toInt / 2 ^ 32)

/-- The high half of an unsigned product (16 R400). -/
def mulHighUnsigned (a b : Word) : Word := BitVec.ofNat 32 (a.toNat * b.toNat / 2 ^ 32)

/-- The one bits of a word. -/
def onesOf (a : Word) : Nat := ((List.range 32).filter a.getLsbD).length

/-- The zero bits above the highest one bit of a word, 32 for zero. -/
def zerosAbove (a : Word) : Nat := if a = 0 then 32 else 31 - Nat.log2 a.toNat

/-- VADD (15 R375). -/
def execVadd (q : Option APre) (d a b : BitVec 7) (s : State) : Out :=
  vectorPure q d.toNat [a.toNat, b.toNat] (fun c l => readLane c.w a.toNat l + readLane c.w b.toNat l) s

/-- VSUB (15 R375). -/
def execVsub (q : Option APre) (d a b : BitVec 7) (s : State) : Out :=
  vectorPure q d.toNat [a.toNat, b.toNat] (fun c l => readLane c.w a.toNat l - readLane c.w b.toNat l) s

/-- VMUL (16 R400). -/
def execVmul (q : Option APre) (d a b : BitVec 7) (s : State) : Out :=
  vectorPure q d.toNat [a.toNat, b.toNat] (fun c l => readLane c.w a.toNat l * readLane c.w b.toNat l) s

/-- VMULH.i (16 R400). -/
def execVmulhI (q : Option APre) (d a b : BitVec 7) (s : State) : Out :=
  vectorPure q d.toNat [a.toNat, b.toNat] (fun c l => mulHighSigned (readLane c.w a.toNat l) (readLane c.w b.toNat l)) s

/-- VMULH.n (16 R400). -/
def execVmulhN (q : Option APre) (d a b : BitVec 7) (s : State) : Out :=
  vectorPure q d.toNat [a.toNat, b.toNat] (fun c l => mulHighUnsigned (readLane c.w a.toNat l) (readLane c.w b.toNat l)) s

/-- VMAD (16 R400): the addend is the fourth operand (04 R77). -/
def execVmad (q : Option APre) (d a b : BitVec 7) (s : State) : Out :=
  vectorPure q d.toNat [a.toNat, b.toNat, fourth q d.toNat]
    (fun c l => readLane c.w a.toNat l * readLane c.w b.toNat l + readLane c.w (fourth q d.toNat) l) s

/-- VMIN.i (16 R401). -/
def execVminI (q : Option APre) (d a b : BitVec 7) (s : State) : Out :=
  vectorPure q d.toNat [a.toNat, b.toNat] (fun c l => if (readLane c.w b.toNat l).slt (readLane c.w a.toNat l) then readLane c.w b.toNat l else readLane c.w a.toNat l) s

/-- VMIN.n (16 R401). -/
def execVminN (q : Option APre) (d a b : BitVec 7) (s : State) : Out :=
  vectorPure q d.toNat [a.toNat, b.toNat] (fun c l => if (readLane c.w b.toNat l).ult (readLane c.w a.toNat l) then readLane c.w b.toNat l else readLane c.w a.toNat l) s

/-- VMAX.i (16 R401). -/
def execVmaxI (q : Option APre) (d a b : BitVec 7) (s : State) : Out :=
  vectorPure q d.toNat [a.toNat, b.toNat] (fun c l => if (readLane c.w a.toNat l).slt (readLane c.w b.toNat l) then readLane c.w b.toNat l else readLane c.w a.toNat l) s

/-- VMAX.n (16 R401). -/
def execVmaxN (q : Option APre) (d a b : BitVec 7) (s : State) : Out :=
  vectorPure q d.toNat [a.toNat, b.toNat] (fun c l => if (readLane c.w a.toNat l).ult (readLane c.w b.toNat l) then readLane c.w b.toNat l else readLane c.w a.toNat l) s

/-- VABS (15 R372): the most negative value is its own. -/
def execVabs (q : Option APre) (d a : BitVec 7) (s : State) : Out :=
  vectorPure q d.toNat [a.toNat] (fun c l => if (readLane c.w a.toNat l).slt 0 then 0 - readLane c.w a.toNat l else readLane c.w a.toNat l) s

/-- VCLZ (15 R381). -/
def execVclz (q : Option APre) (d a : BitVec 7) (s : State) : Out :=
  vectorPure q d.toNat [a.toNat] (fun c l => BitVec.ofNat 32 (zerosAbove (readLane c.w a.toNat l))) s

/-- VPOPC (15 R381). -/
def execVpopc (q : Option APre) (d a : BitVec 7) (s : State) : Out :=
  vectorPure q d.toNat [a.toNat] (fun c l => BitVec.ofNat 32 (onesOf (readLane c.w a.toNat l))) s

/-- VADDI (15 R375). -/
def execVaddi (q : Option APre) (d a : BitVec 7) (i : BitVec 11) (s : State) : Out :=
  vectorPure q d.toNat [a.toNat] (fun c l => readLane c.w a.toNat l + i.signExtend 32) s

end Sys2Proof.Machine
end

