-- ==== Sys2Proof/Machine/Logic.lean ====
section
/-!
DEFINITION. The bitwise, shift and bit-field instructions of majors 0x02 and 0x04 to 0x07 (15 R376, R380; 16 R410).
-/
namespace Sys2Proof.Machine

/-- A field of VBFE and VBFI (15 R380): its position, and its length cut at bit 31. -/
def fieldOf (f : Word) : Nat × Nat :=
  let pos := f.toNat % 32
  (pos, min (bits f.toNat 13 8) (32 - pos))

/-- A field extracted with zeros above it (15 R380). -/
def fieldBits (a f : Word) : Nat := a.toNat / 2 ^ (fieldOf f).1 % 2 ^ (fieldOf f).2

/-- A field extracted and sign-extended from its top bit; an empty field gives 0 (15 R380). -/
def fieldSigned (a f : Word) : Word :=
  if (fieldOf f).2 = 0 then 0 else BitVec.ofInt 32 (signedNat (fieldOf f).2 (fieldBits a f))

/-- A field inserted (15 R380). -/
def fieldInsert (c a f : Word) : Word :=
  let mask := BitVec.ofNat 32 ((2 ^ (fieldOf f).2 - 1) * 2 ^ (fieldOf f).1)
  (c &&& ~~~mask) ||| ((a <<< (fieldOf f).1) &&& mask)

/-- A left shift by a whole register (16 R410). -/
def shl32 (a b : Word) : Word := if 32 ≤ b.toNat then 0 else a <<< b.toNat

/-- A right shift by a whole register that fills with zeros (16 R410). -/
def shr32 (a b : Word) : Word := if 32 ≤ b.toNat then 0 else a >>> b.toNat

/-- A right shift by a whole register that fills with the sign (16 R410). -/
def sar32 (a b : Word) : Word := a.sshiftRight (min b.toNat 31)

/-- VAND (15 R376). -/
def execVand (q : Option APre) (d a b : BitVec 7) (s : State) : Out :=
  vectorPure q d.toNat [a.toNat, b.toNat] (fun c l => readLane c.w a.toNat l &&& readLane c.w b.toNat l) s

/-- VOR (15 R376). -/
def execVor (q : Option APre) (d a b : BitVec 7) (s : State) : Out :=
  vectorPure q d.toNat [a.toNat, b.toNat] (fun c l => readLane c.w a.toNat l ||| readLane c.w b.toNat l) s

/-- VXOR (15 R376). -/
def execVxor (q : Option APre) (d a b : BitVec 7) (s : State) : Out :=
  vectorPure q d.toNat [a.toNat, b.toNat] (fun c l => readLane c.w a.toNat l ^^^ readLane c.w b.toNat l) s

/-- VSHL by a register (16 R410): an amount of 32 or more gives 0. -/
def execVshl (q : Option APre) (d a b : BitVec 7) (s : State) : Out :=
  vectorPure q d.toNat [a.toNat, b.toNat] (fun c l => shl32 (readLane c.w a.toNat l) (readLane c.w b.toNat l)) s

/-- VSHR by a register (16 R410): an amount of 32 or more gives 0. -/
def execVshr (q : Option APre) (d a b : BitVec 7) (s : State) : Out :=
  vectorPure q d.toNat [a.toNat, b.toNat] (fun c l => shr32 (readLane c.w a.toNat l) (readLane c.w b.toNat l)) s

/-- VSAR by a register (16 R410): an amount of 32 or more gives the sign. -/
def execVsar (q : Option APre) (d a b : BitVec 7) (s : State) : Out :=
  vectorPure q d.toNat [a.toNat, b.toNat] (fun c l => sar32 (readLane c.w a.toNat l) (readLane c.w b.toNat l)) s

/-- VBFE.i (15 R380). -/
def execVbfeI (q : Option APre) (d a b : BitVec 7) (s : State) : Out :=
  vectorPure q d.toNat [a.toNat, b.toNat] (fun c l => fieldSigned (readLane c.w a.toNat l) (readLane c.w b.toNat l)) s

/-- VBFE.n (15 R380). -/
def execVbfeN (q : Option APre) (d a b : BitVec 7) (s : State) : Out :=
  vectorPure q d.toNat [a.toNat, b.toNat] (fun c l => BitVec.ofNat 32 (fieldBits (readLane c.w a.toNat l) (readLane c.w b.toNat l))) s

/-- VBFI (15 R380): into the fourth operand (04 R77). -/
def execVbfi (q : Option APre) (d a b : BitVec 7) (s : State) : Out :=
  vectorPure q d.toNat [a.toNat, b.toNat, fourth q d.toNat]
    (fun c l => fieldInsert (readLane c.w (fourth q d.toNat) l) (readLane c.w a.toNat l) (readLane c.w b.toNat l)) s

/-- VANDI (15 R376). -/
def execVandi (q : Option APre) (d a : BitVec 7) (i : BitVec 11) (s : State) : Out :=
  vectorPure q d.toNat [a.toNat] (fun c l => readLane c.w a.toNat l &&& i.signExtend 32) s

/-- VORI (15 R376). -/
def execVori (q : Option APre) (d a : BitVec 7) (i : BitVec 11) (s : State) : Out :=
  vectorPure q d.toNat [a.toNat] (fun c l => readLane c.w a.toNat l ||| i.signExtend 32) s

/-- VXORI (15 R376). -/
def execVxori (q : Option APre) (d a : BitVec 7) (i : BitVec 11) (s : State) : Out :=
  vectorPure q d.toNat [a.toNat] (fun c l => readLane c.w a.toNat l ^^^ i.signExtend 32) s

/-- VSHL by an immediate (16 R410). -/
def execVshlImm (q : Option APre) (d a : BitVec 7) (n : BitVec 5) (s : State) : Out :=
  vectorPure q d.toNat [a.toNat] (fun c l => readLane c.w a.toNat l <<< n.toNat) s

/-- VSHR by an immediate (16 R410). -/
def execVshrImm (q : Option APre) (d a : BitVec 7) (n : BitVec 5) (s : State) : Out :=
  vectorPure q d.toNat [a.toNat] (fun c l => readLane c.w a.toNat l >>> n.toNat) s

/-- VSAR by an immediate (16 R410). -/
def execVsarImm (q : Option APre) (d a : BitVec 7) (n : BitVec 5) (s : State) : Out :=
  vectorPure q d.toNat [a.toNat] (fun c l => (readLane c.w a.toNat l).sshiftRight n.toNat) s

end Sys2Proof.Machine
end

