-- ==== Sys2Proof/Machine/Moves.lean ====
section
/-!
DEFINITION. Comparisons, selections, moves and predicate logic (13 R321; 14 R340; 15 R383; 16 R402, R403, R412).
-/
namespace Sys2Proof.Machine

/-- VCMP (15 R383): a comparison into a predicate. -/
def execVcmp (q : Option APre) (t : BitVec 2) (p : BitVec 5) (a b : BitVec 7) (k : BitVec 4) (s : State) : Out :=
  predicateOp q p.toNat [a.toNat, b.toNat] [] (fun c l => opCompare t.toNat k.toNat (readLane c.w a.toNat l).toNat (readLane c.w b.toNat l).toNat) s

/-- A vector move that also reads s registers or predicates (16 R402, R412). -/
def moveOp (q : Option APre) (d : Nat) (srcV srcS srcP : List Nat) (f : Cx → Nat → Word) (s : State) : Out :=
  withCx s fun c =>
    let act := activeA c.w q
    c.vchecks act (zeroedA c.w q) [d] ((d :: srcV).map (fun r => (r, 1))) srcV srcS (guardRegA q ++ srcP)
      (c.retire (advance (lenOf q) (writeV (bump c.w) d act (zeroedA c.w q) (f c))) [])

/-- VSEL (16 R412). -/
def execVsel (q : Option APre) (d a b : BitVec 7) (p : BitVec 4) (s : State) : Out :=
  moveOp q d.toNat [a.toNat, b.toNat] [] [p.toNat]
    (fun c l => if (readP c.w p.toNat).getLsbD l then readLane c.w a.toNat l else readLane c.w b.toNat l) s

/-- VMOV of a v register (16 R402). -/
def execVmov (q : Option APre) (d a : BitVec 7) (s : State) : Out := moveOp q d.toNat [a.toNat] [] [] (fun c l => readLane c.w a.toNat l) s

/-- VMOV.lo (16 R402). -/
def execVmovLo (q : Option APre) (d : BitVec 7) (r : BitVec 6) (s : State) : Out :=
  moveOp q d.toNat [] [192 + r.toNat] [] (fun c _ => (readS c.w r.toNat).setWidth 32) s

/-- VMOV.hi (16 R402). -/
def execVmovHi (q : Option APre) (d : BitVec 7) (r : BitVec 6) (s : State) : Out :=
  moveOp q d.toNat [] [128 + r.toNat] [] (fun c _ => (readS c.w r.toNat >>> (32 : Nat)).setWidth 32) s

/-- VMOV.lane (16 R402): the lane's index. -/
def execVmovLane (q : Option APre) (d : BitVec 7) (s : State) : Out :=
  moveOp q d.toNat [] [] [] (fun _ l => BitVec.ofNat 32 l) s

/-- VMOV.tid (02 R19, 16 R402): the linear thread index, which in a spawned team is the order of arrival (02 R39). -/
def execVmovTid (q : Option APre) (d : BitVec 7) (s : State) : Out :=
  moveOp q d.toNat [] [] [] (fun c l => BitVec.ofNat 32 (c.w.warpix * c.w.grant + l)) s

/-- VMOVI (16 R403). -/
def execVmovi (q : Option APre) (d : BitVec 7) (i : BitVec 18) (s : State) : Out :=
  moveOp q d.toNat [] [] [] (fun _ _ => i.signExtend 32) s

/-- PLOG (14 R340): a truth table of two predicates. -/
def execPlog (q : Option APre) (d a b : BitVec 5) (t : BitVec 4) (s : State) : Out :=
  predicateOp q d.toNat [] [a.toNat, b.toNat]
    (fun c l => t.getLsbD (2 * ((readP c.w a.toNat).getLsbD l).toNat + ((readP c.w b.toNat).getLsbD l).toNat)) s

/-- ELECT (13 R321): true in the lowest active lane alone. Where no lane is active none is elected, and the lanes that a guard removes follow
03 R44 as ever: they keep pd, or receive false under .z (04 R71, R77; log 113). -/
def execElect (q : Option APre) (d : BitVec 5) (s : State) : Out :=
  predicateOp q d.toNat [] [] (fun c l => lowest (activeA c.w q) == some l) s

end Sys2Proof.Machine
end

