-- ==== Sys2Proof/Machine/Packed.lean ====
section
/-!
DEFINITION. Packed narrow arithmetic (16 R406, R407) and conversions (15 R384, R385).
-/
namespace Sys2Proof.Machine

/-- The element format of a packed instruction (16 R406). -/
def packedFmt (t : BitVec 2) : Fmt :=
  match t.toNat with
  | 0 => .e4m3
  | 1 => .e5m2
  | 2 => .bf16
  | _ => .f16

/-- Element k of a word (05 R108). -/
def slotOf (w x k : Nat) : Nat := x / 2 ^ (w * k) % 2 ^ w

/-- A packed operation element by element (05 R109): the word and the events, from element 0 up. -/
def packedOp (w : Nat) (f : Nat → Nat × Events) : Nat × Events :=
  (List.range (32 / w)).foldl (fun r k => (r.1 + (f k).1 * 2 ^ (w * k), r.2 ++ (f k).2)) (0, [])

/-- VPKADD (16 R407). -/
def execVpkadd (q : Option APre) (d a b : BitVec 7) (t : BitVec 2) (s : State) : Out :=
  vectorOp q d.toNat [a.toNat, b.toNat] (fun c l => packedOp (packedFmt t).width (fun k =>
    opAdd (packedFmt t) (effRm c.w.nmode q (packedFmt t)) (effSat c.w.nmode q (packedFmt t)) (slotOf (packedFmt t).width (readLane c.w a.toNat l).toNat k) (slotOf (packedFmt t).width (readLane c.w b.toNat l).toNat k))) s

/-- VPKMUL (16 R407). -/
def execVpkmul (q : Option APre) (d a b : BitVec 7) (t : BitVec 2) (s : State) : Out :=
  vectorOp q d.toNat [a.toNat, b.toNat] (fun c l => packedOp (packedFmt t).width (fun k =>
    opMul (packedFmt t) (effRm c.w.nmode q (packedFmt t)) (effSat c.w.nmode q (packedFmt t)) (slotOf (packedFmt t).width (readLane c.w a.toNat l).toNat k) (slotOf (packedFmt t).width (readLane c.w b.toNat l).toNat k))) s

/-- VPKFMA (16 R407): the addend is the fourth operand (04 R77). -/
def execVpkfma (q : Option APre) (d a b : BitVec 7) (t : BitVec 2) (s : State) : Out :=
  vectorOp q d.toNat [a.toNat, b.toNat, fourth q d.toNat] (fun c l => packedOp (packedFmt t).width (fun k =>
    opFma (packedFmt t) (effRm c.w.nmode q (packedFmt t)) (effSat c.w.nmode q (packedFmt t)) (slotOf (packedFmt t).width (readLane c.w a.toNat l).toNat k)
      (slotOf (packedFmt t).width (readLane c.w b.toNat l).toNat k) (slotOf (packedFmt t).width (readLane c.w (fourth q d.toNat) l).toNat k))) s

/-- The format of a VCVT code (04 R79): the destination codes, of which the first seven are the source codes. -/
def cvtFmt (code : Nat) : Fmt := (Fmt.ofCode code).getD .f32

/-- A narrow result above which its register is filled (05 R108): sign bits for I8 and I16, zeros otherwise. -/
def fillNarrow (f : Fmt) (y : Nat) : Nat :=
  if f = .i8 ∨ f = .i16 then (BitVec.ofInt 32 (signedNat f.width y)).toNat else y

/-- One lane of VCVT (15 R385): from a slot or the low bits of x, into a slot of old or the whole register. -/
def convertLane (rm : Rm) (sb : Bool) (src dst : Fmt) (extract insert : Bool) (slot x old : Nat) : Nat × Events :=
  let field := slotOf src.width x (if extract then slot else 0)
  let y := opConvert src dst rm sb field
  if insert then
    let place := dst.width * slot
    (old - slotOf dst.width old slot * 2 ^ place + y.1 * 2 ^ place, y.2)
  else (fillNarrow dst y.1, y.2)

/-- VCVT (15 R385): with the insert field the old destination is a source (05 R108). -/
def execVcvt (q : Option APre) (d a : BitVec 7) (c : BitVec 3) (t : BitVec 4) (x i : BitVec 1) (k : BitVec 2) (s : State) : Out :=
  let dst := cvtFmt t.toNat
  vectorOp q d.toNat (if i = 1 then [a.toNat, d.toNat] else [a.toNat])
    (fun cx l => convertLane (effRm cx.w.nmode q dst) (effSat cx.w.nmode q dst) (cvtFmt c.toNat) dst (x == 1) (i == 1) k.toNat
      (readLane cx.w a.toNat l).toNat (readLane cx.w d.toNat l).toNat) s

end Sys2Proof.Machine
end

