-- ==== Sys2Proof/Machine/Sfu.lean ====
section
/-!
DEFINITION. The special functions (15 R373, R386; 16 R397-R399). Irrational results are computed as integers with far more bits
than any format holds and one more low bit set, which stands for the part below: rounding that value rounds the exact
one, since no FP32 operand brings the exact value that near to a rounding boundary (log 22).
-/
namespace Sys2Proof.Machine

/-- ⌊√n⌋ built from bit b down: r is the part found so far. -/
def isqrtFrom (n : Nat) : Nat → Nat → Nat
  | 0, r => r
  | b + 1, r => isqrtFrom n b (if (r + 2 ^ b) * (r + 2 ^ b) ≤ n then r + 2 ^ b else r)

/-- ⌊√n⌋. -/
def isqrt (n : Nat) : Nat := isqrtFrom n (Nat.log2 n / 2 + 1) 0

/-- A magnitude known to lie strictly between q × 2^e and (q + 1) × 2^e, or to equal the lower end. -/
def stickyMag (neg : Bool) (q : Nat) (exact : Bool) (e : Int) : Num :=
  .fin neg (2 * q + if exact then 0 else 1) (e - 1)

/-- 1/x for a non-zero finite x, to 64 or more bits (16 R397). -/
def recipExact (neg : Bool) (mag : Nat) (e : Int) : Num :=
  let t := 64 + Nat.log2 mag
  stickyMag neg (2 ^ t / mag) (2 ^ t % mag == 0) (-e - (t : Int))

/-- The even exponent and magnitude of a positive finite value. -/
def evenExp (mag : Nat) (e : Int) : Nat × Int := if e % 2 = 0 then (mag, e) else (2 * mag, e - 1)

/-- √x for a positive finite x, to 64 or more bits (16 R397). -/
def sqrtExact (mag : Nat) (e : Int) : Num :=
  let (m, g) := evenExp mag e
  let n := m * 2 ^ 128
  let r := isqrt n
  stickyMag false r (r * r == n) (g / 2 - 64)

/-- 1/√x for a positive finite x, to 64 or more bits (16 R397). -/
def rsqrtExact (mag : Nat) (e : Int) : Num :=
  let (m, g) := evenExp mag e
  let t := 64 + Nat.log2 m
  let r := isqrt (2 ^ (2 * t) / m)
  stickyMag false r (r * r * m == 2 ^ (2 * t)) (-(g / 2) - (t : Int))

/-- Fractional bits of the fixed-point values that VEXP2 and VLOG2 are computed in. -/
def fixBits : Nat := 256

/-- ⌊ln 2 × 2^256⌋. -/
def ln2Fix : Nat := 0xb17217f7d1cf79abc9e3b39803f2f6af40f343267298b62d8a0d175b8baafa2b

/-- Fractional bits of the fixed-point values that VSINP is computed in. -/
def sinBits : Nat := 448

/-- ⌊π × 2^448⌋. -/
def piFix : Nat :=
  0x3243f6a8885a308d313198a2e03707344a4093822299f31d0082efa98ec4e6c89452821e638d01377be5466cf34e90c6cc0ac29b7c97c50dd

/-- The sum of k further terms of the exponential series after term n, with t = y^n/n! (fixed point of fixBits). -/
def expSeries (y : Nat) : Nat → Nat → Nat → Nat
  | 0, _, _ => 0
  | k + 1, n, t => t + expSeries y k (n + 1) (t * y / 2 ^ fixBits / (n + 1))

/-- 2^f for 0 < f < 1 with f in units of 2^-256. -/
def exp2Fix (f : Nat) : Nat := expSeries (f * ln2Fix / 2 ^ fixBits) 64 0 (2 ^ fixBits)

/-- 2^x for a finite x = ±mag × 2^e (15 R386): exact for an integer x. An x far outside FP32's range stands at ±4096, where every
rounding has the same outcome. -/
def exp2Exact (neg : Bool) (mag : Nat) (e : Int) : Num :=
  let big := 4096 * 2 ^ 149
  let scaled := if e < -149 then 0 else mag * 2 ^ (e + 149).toNat
  if big ≤ scaled then .fin false 1 (if neg then -4096 else 4096)
  else
    let x : Int := if neg then -(scaled : Int) else scaled
    let k := x / (2 ^ 149 : Nat)
    let f := (x % (2 ^ 149 : Nat)).toNat
    if f = 0 then .fin false 1 k
    else stickyMag false (exp2Fix (f * 2 ^ (fixBits - 149))) false (k - (fixBits : Int))

/-- The sum of k further terms z^n/n of the odd powers of z, with p = z^n (fixed point of fixBits). -/
def atanhSeries (z2 : Nat) : Nat → Nat → Nat → Nat
  | 0, _, _ => 0
  | k + 1, n, p => p / n + atanhSeries z2 k (n + 2) (p * z2 / 2 ^ fixBits)

/-- log2 of m / 2^l for 2^l < m < 2^(l+1), in units of 2^-256. -/
def log2Fix (m l : Nat) : Nat :=
  let z := (m - 2 ^ l) * 2 ^ fixBits / (m + 2 ^ l)
  2 * atanhSeries (z * z / 2 ^ fixBits) 90 1 z * 2 ^ fixBits / ln2Fix

/-- log2 x for a positive finite x (16 R397): exact for a power of two, and +0 for 1. -/
def log2Exact (mag : Nat) (e : Int) : Num :=
  let l := Nat.log2 mag
  let k : Int := e + (l : Int)
  if mag = 2 ^ l then .ofInt k
  else
    let v : Int := k * (2 ^ fixBits : Nat) + (log2Fix mag l : Nat)
    if 0 ≤ v then stickyMag false v.natAbs false (-(fixBits : Int))
    else stickyMag true (v.natAbs - 1) false (-(fixBits : Int))

/-- The sum of k further term pairs of the sine series, with t the term y^n/n! (fixed point of sinBits). -/
def sinSeries (y2 : Nat) : Nat → Nat → Nat → Nat
  | 0, _, _ => 0
  | k + 1, n, t =>
    let u := t * y2 / 2 ^ sinBits / ((n + 1) * (n + 2))
    t - u + sinSeries y2 k (n + 4) (u * y2 / 2 ^ sinBits / ((n + 3) * (n + 4)))

/-- sin(π·y) for 0 < y < 1/2 with y in units of 2^-448. -/
def sinpiFix (y : Nat) : Nat :=
  let a := y * piFix / 2 ^ sinBits
  sinSeries (a * a / 2 ^ sinBits) 30 1 a

/-- sin(π·x) for a finite x (16 R397, R399): zero with x's sign for an integer, ±1 for an odd half. -/
def sinpiExact (neg : Bool) (mag : Nat) (e : Int) : Num :=
  let turn := 2 ^ (sinBits + 1)
  let half := 2 ^ sinBits
  let quarter := 2 ^ (sinBits - 1)
  let u := if (0 : Int) < e then (if mag = 0 then 0 else mag * 2 ^ e.toNat % 2) * half
    else mag * 2 ^ ((sinBits : Int) + e).toNat % turn
  let v := u % half
  if v = 0 then .fin neg 0 0
  else
    let flip := decide (half ≤ u)
    let w := if quarter < v then half - v else v
    if w = quarter then .fin (neg != flip) 1 0
    else stickyMag (neg != flip) (sinpiFix w) false (-(sinBits : Int))

/-- The result of VRCP and VRSQ (16 R398): 12 significant bits, rounded to nearest even, then delivered. -/
def deliver12 (rm : Rm) (sb : Bool) : Num → Nat × Events
  | .fin neg mag e =>
    let (k, q) := roundSig .rne neg 12 mag e
    deliver .f32 rm sb (.fin neg k q)
  | .nan => deliver .f32 rm sb .nan
  | .inf neg => deliver .f32 rm sb (.inf neg)

/-- An invalid operand of a special function (16 R399). -/
def sfuInvalid : Nat × Events := (Fmt.cnan .f32, [0, 4])

/-- VRCP (16 R397-R399). -/
def opRcp (rm : Rm) (sb : Bool) (a : Nat) : Nat × Events :=
  match valueOf .f32 a with
  | .nan => (Fmt.cnan .f32, [])
  | .inf neg => (withSign .f32 neg 0, [])
  | .fin neg mag e => if mag = 0 then (withSign .f32 neg (Fmt.maxMag .f32 + 1), []) else deliver12 rm sb (recipExact neg mag e)

/-- VRSQ (16 R397-R399). -/
def opRsq (rm : Rm) (sb : Bool) (a : Nat) : Nat × Events :=
  match valueOf .f32 a with
  | .nan => (Fmt.cnan .f32, [])
  | .inf neg => if neg then sfuInvalid else (0, [])
  | .fin neg mag e =>
    if mag = 0 then (withSign .f32 neg (Fmt.maxMag .f32 + 1), [])
    else if neg then sfuInvalid
    else deliver12 rm sb (rsqrtExact mag e)

/-- VSQRT (16 R397, R399). -/
def opSqrt (rm : Rm) (sb : Bool) (a : Nat) : Nat × Events :=
  match valueOf .f32 a with
  | .nan => (Fmt.cnan .f32, [])
  | .inf neg => if neg then sfuInvalid else (Fmt.maxMag .f32 + 1, [])
  | .fin neg mag e =>
    if mag = 0 then (withSign .f32 neg 0, [])
    else if neg then sfuInvalid
    else deliver .f32 rm sb (sqrtExact mag e)

/-- VEXP2 (15 R386). -/
def opExp2 (rm : Rm) (sb : Bool) (a : Nat) : Nat × Events :=
  match valueOf .f32 a with
  | .nan => (Fmt.cnan .f32, [])
  | .inf neg => (if neg then 0 else Fmt.maxMag .f32 + 1, [])
  | .fin neg mag e => deliver .f32 rm sb (exp2Exact neg mag e)

/-- VLOG2 (16 R397, R399). -/
def opLog2 (rm : Rm) (sb : Bool) (a : Nat) : Nat × Events :=
  match valueOf .f32 a with
  | .nan => (Fmt.cnan .f32, [])
  | .inf neg => if neg then sfuInvalid else (Fmt.maxMag .f32 + 1, [])
  | .fin neg mag e =>
    if mag = 0 then (withSign .f32 true (Fmt.maxMag .f32 + 1), [])
    else if neg then sfuInvalid
    else deliver .f32 rm sb (log2Exact mag e)

/-- VSINP (16 R397, R399). -/
def opSinp (rm : Rm) (sb : Bool) (a : Nat) : Nat × Events :=
  match valueOf .f32 a with
  | .nan => (Fmt.cnan .f32, [])
  | .inf _ => sfuInvalid
  | .fin neg mag e => if mag = 0 then (withSign .f32 neg 0, []) else deliver .f32 rm sb (sinpiExact neg mag e)

/-- The segment of an activation table that a value falls in (15 R373): ⌊16x⌋ + 128, clamped to 0 to 255. -/
def actIndex : Num → Nat
  | .nan => 0
  | .inf neg => if neg then 0 else 255
  | .fin neg mag e =>
    let x : Int := if neg then -(mag : Int) else mag
    let q : Int := if (-4 : Int) ≤ e then x * (2 ^ (e + 4).toNat : Nat) else x / (2 ^ (-(e + 4)).toNat : Nat)
    (max 0 (min 255 (q + 128))).toNat

/-- VACT with the table entry it looked up (15 R373): slope in the low half, intercept in the high half, both BF16. -/
def opAct (rm : Rm) (sb : Bool) (entry a : Nat) : Nat × Events :=
  let x := valueOf .f32 a
  if x.isNan then (Fmt.cnan .f32, [])
  else fmaExact .f32 rm sb (valueOf .bf16 entry) x (valueOf .bf16 (entry / 2 ^ 16))

end Sys2Proof.Machine
end

