-- ==== Sys2Proof/Machine/Special.lean ====
section
/-!
DEFINITION. The special functions of major 0x0A (15 R373, R386; 16 R397-R399).
-/
namespace Sys2Proof.Machine

/-- VRCP (16 R398, R399). -/
def execVrcp (q : Option APre) (d a : BitVec 7) (s : State) : Out :=
  vectorOp q d.toNat [a.toNat] (fun c l => opRcp (effRm c.w.nmode q .f32) (effSat c.w.nmode q .f32) (readLane c.w a.toNat l).toNat) s

/-- VRSQ (16 R398, R399). -/
def execVrsq (q : Option APre) (d a : BitVec 7) (s : State) : Out :=
  vectorOp q d.toNat [a.toNat] (fun c l => opRsq (effRm c.w.nmode q .f32) (effSat c.w.nmode q .f32) (readLane c.w a.toNat l).toNat) s

/-- VSQRT (16 R397, R399). -/
def execVsqrt (q : Option APre) (d a : BitVec 7) (s : State) : Out :=
  vectorOp q d.toNat [a.toNat] (fun c l => opSqrt (effRm c.w.nmode q .f32) (effSat c.w.nmode q .f32) (readLane c.w a.toNat l).toNat) s

/-- VEXP2 (15 R386). -/
def execVexp2 (q : Option APre) (d a : BitVec 7) (s : State) : Out :=
  vectorOp q d.toNat [a.toNat] (fun c l => opExp2 (effRm c.w.nmode q .f32) (effSat c.w.nmode q .f32) (readLane c.w a.toNat l).toNat) s

/-- VLOG2 (16 R397, R399). -/
def execVlog2 (q : Option APre) (d a : BitVec 7) (s : State) : Out :=
  vectorOp q d.toNat [a.toNat] (fun c l => opLog2 (effRm c.w.nmode q .f32) (effSat c.w.nmode q .f32) (readLane c.w a.toNat l).toNat) s

/-- VSINP (16 R397, R399). -/
def execVsinp (q : Option APre) (d a : BitVec 7) (s : State) : Out :=
  vectorOp q d.toNat [a.toNat] (fun c l => opSinp (effRm c.w.nmode q .f32) (effSat c.w.nmode q .f32) (readLane c.w a.toNat l).toNat) s

/-- The entry of the warp's current activation bank for a value (09 R216, R217; 15 R373). -/
def actEntry (c : Cx) (x : Nat) : Nat :=
  let bank := (getCore c.s c.core).bank c.w.bank
  (tget 0 (if bank.actCur then bank.act1 else bank.act0) (actIndex (valueOf .f32 x))).toNat

/-- VACT (15 R373, R374): it reads the bank that is current when it executes. -/
def execVact (q : Option APre) (d a : BitVec 7) (s : State) : Out :=
  vectorOp q d.toNat [a.toNat] (fun c l => opAct (effRm c.w.nmode q .f32) (effSat c.w.nmode q .f32) (actEntry c (readLane c.w a.toNat l).toNat) (readLane c.w a.toNat l).toNat) s

end Sys2Proof.Machine
end

