-- ==== Sys2Proof/Machine/Uniform.lean ====
section
/-!
DEFINITION. The uniform integer instructions (15 R360-R362, R370), UFROMV (15 R366) and SETW (14 R342).
-/
namespace Sys2Proof.Machine

/-- A shift left by a 64-bit amount (15 R361): 0 from 64 up. -/
def shl64 (a b : DWord) : DWord := if 64 ≤ b.toNat then 0 else a <<< b.toNat

/-- A logical shift right by a 64-bit amount (15 R361): 0 from 64 up. -/
def shr64 (a b : DWord) : DWord := if 64 ≤ b.toNat then 0 else a >>> b.toNat

/-- An arithmetic shift right by a 64-bit amount (15 R361): the sign from 64 up. -/
def sar64 (a b : DWord) : DWord := a.sshiftRight (min b.toNat 63)

/-- The high 64 bits of the signed product (15 R361). -/
def mulhSigned (a b : DWord) : DWord := BitVec.ofInt 64 (a.toInt * b.toInt / (2 ^ 64 : Nat))

/-- The high 64 bits of the unsigned product (15 R361). -/
def mulhUnsigned (a b : DWord) : DWord := BitVec.ofNat 64 (a.toNat * b.toNat / 2 ^ 64)

/-- UADD (15 R361). -/
def execUadd (d a b : BitVec 6) (s : State) : Out :=
  uniformOp d.toNat [a.toNat, b.toNat] (fun c =>
    let a := readS c.w a.toNat
    let b := readS c.w b.toNat
    a + b) s

/-- USUB (15 R361). -/
def execUsub (d a b : BitVec 6) (s : State) : Out :=
  uniformOp d.toNat [a.toNat, b.toNat] (fun c =>
    let a := readS c.w a.toNat
    let b := readS c.w b.toNat
    a - b) s

/-- UMUL (15 R361). -/
def execUmul (d a b : BitVec 6) (s : State) : Out :=
  uniformOp d.toNat [a.toNat, b.toNat] (fun c =>
    let a := readS c.w a.toNat
    let b := readS c.w b.toNat
    a * b) s

/-- UMULH.i (15 R361). -/
def execUmulhI (d a b : BitVec 6) (s : State) : Out :=
  uniformOp d.toNat [a.toNat, b.toNat] (fun c =>
    let a := readS c.w a.toNat
    let b := readS c.w b.toNat
    mulhSigned a b) s

/-- UMULH.n (15 R361). -/
def execUmulhN (d a b : BitVec 6) (s : State) : Out :=
  uniformOp d.toNat [a.toNat, b.toNat] (fun c =>
    let a := readS c.w a.toNat
    let b := readS c.w b.toNat
    mulhUnsigned a b) s

/-- UAND (15 R361). -/
def execUand (d a b : BitVec 6) (s : State) : Out :=
  uniformOp d.toNat [a.toNat, b.toNat] (fun c =>
    let a := readS c.w a.toNat
    let b := readS c.w b.toNat
    a &&& b) s

/-- UOR (15 R361). -/
def execUor (d a b : BitVec 6) (s : State) : Out :=
  uniformOp d.toNat [a.toNat, b.toNat] (fun c =>
    let a := readS c.w a.toNat
    let b := readS c.w b.toNat
    a ||| b) s

/-- UXOR (15 R361). -/
def execUxor (d a b : BitVec 6) (s : State) : Out :=
  uniformOp d.toNat [a.toNat, b.toNat] (fun c =>
    let a := readS c.w a.toNat
    let b := readS c.w b.toNat
    a ^^^ b) s

/-- USHL (15 R361). -/
def execUshl (d a b : BitVec 6) (s : State) : Out :=
  uniformOp d.toNat [a.toNat, b.toNat] (fun c =>
    let a := readS c.w a.toNat
    let b := readS c.w b.toNat
    shl64 a b) s

/-- USHR (15 R361). -/
def execUshr (d a b : BitVec 6) (s : State) : Out :=
  uniformOp d.toNat [a.toNat, b.toNat] (fun c =>
    let a := readS c.w a.toNat
    let b := readS c.w b.toNat
    shr64 a b) s

/-- USAR (15 R361). -/
def execUsar (d a b : BitVec 6) (s : State) : Out :=
  uniformOp d.toNat [a.toNat, b.toNat] (fun c =>
    let a := readS c.w a.toNat
    let b := readS c.w b.toNat
    sar64 a b) s

/-- UMIN.i (15 R361). -/
def execUminI (d a b : BitVec 6) (s : State) : Out :=
  uniformOp d.toNat [a.toNat, b.toNat] (fun c =>
    let a := readS c.w a.toNat
    let b := readS c.w b.toNat
    if b.slt a then b else a) s

/-- UMIN.n (15 R361). -/
def execUminN (d a b : BitVec 6) (s : State) : Out :=
  uniformOp d.toNat [a.toNat, b.toNat] (fun c =>
    let a := readS c.w a.toNat
    let b := readS c.w b.toNat
    if b.ult a then b else a) s

/-- UMAX.i (15 R361). -/
def execUmaxI (d a b : BitVec 6) (s : State) : Out :=
  uniformOp d.toNat [a.toNat, b.toNat] (fun c =>
    let a := readS c.w a.toNat
    let b := readS c.w b.toNat
    if a.slt b then b else a) s

/-- UMAX.n (15 R361). -/
def execUmaxN (d a b : BitVec 6) (s : State) : Out :=
  uniformOp d.toNat [a.toNat, b.toNat] (fun c =>
    let a := readS c.w a.toNat
    let b := readS c.w b.toNat
    if a.ult b then b else a) s

/-- UMOV (15 R361). -/
def execUmov (d a : BitVec 6) (s : State) : Out := uniformOp d.toNat [a.toNat] (fun c => readS c.w a.toNat) s

/-- UADDI (15 R362). -/
def execUaddi (d a : BitVec 6) (i : BitVec 13) (s : State) : Out :=
  uniformOp d.toNat [a.toNat] (fun c => readS c.w a.toNat + i.signExtend 64) s

/-- UANDI (15 R362). -/
def execUandi (d a : BitVec 6) (i : BitVec 13) (s : State) : Out :=
  uniformOp d.toNat [a.toNat] (fun c => readS c.w a.toNat &&& i.signExtend 64) s

/-- UORI (15 R362). -/
def execUori (d a : BitVec 6) (i : BitVec 13) (s : State) : Out :=
  uniformOp d.toNat [a.toNat] (fun c => readS c.w a.toNat ||| i.signExtend 64) s

/-- UXORI (15 R362). -/
def execUxori (d a : BitVec 6) (i : BitVec 13) (s : State) : Out :=
  uniformOp d.toNat [a.toNat] (fun c => readS c.w a.toNat ^^^ i.signExtend 64) s

/-- USHL with an immediate (15 R362). -/
def execUshlImm (d a : BitVec 6) (n : BitVec 6) (s : State) : Out :=
  uniformOp d.toNat [a.toNat] (fun c => readS c.w a.toNat <<< n.toNat) s

/-- USHR with an immediate (15 R362). -/
def execUshrImm (d a : BitVec 6) (n : BitVec 6) (s : State) : Out :=
  uniformOp d.toNat [a.toNat] (fun c => readS c.w a.toNat >>> n.toNat) s

/-- USAR with an immediate (15 R362). -/
def execUsarImm (d a : BitVec 6) (n : BitVec 6) (s : State) : Out :=
  uniformOp d.toNat [a.toNat] (fun c => (readS c.w a.toNat).sshiftRight n.toNat) s

/-- UMOVI (15 R362). -/
def execUmovi (d : BitVec 6) (i : BitVec 19) (s : State) : Out := uniformOp d.toNat [] (fun _ => i.signExtend 64) s

/-- ULIT (15 R360, R370): one half of an s register; the other keeps its value, and so is read (03 R54). -/
def execUlit (d : BitVec 6) (h : BitVec 1) (lit : Word) (s : State) : Out :=
  withCx s fun c => c.uchecks [if h = 0 then 128 + d.toNat else 192 + d.toNat]
    (let old := readS c.w d.toNat
     let x := if h = 0 then old.extractLsb' 32 32 ++ lit else lit ++ old.extractLsb' 0 32
     c.retire (advance 8 (writeS (bump c.w) d.toNat x)) [])

/-- UFROMV (15 R366): the word or pair of the path's lowest lane. -/
def execUfromv (d : BitVec 6) (i : BitVec 7) (p : BitVec 1) (s : State) : Out :=
  withCx s fun c =>
    let l := (lowest c.w.path).getD 0
    let n := if p = 1 then 2 else 1
    let lo := (readLane c.w i.toNat l).setWidth 64
    let x := if p = 1 then readLane c.w (i.toNat + 1) l ++ readLane c.w i.toNat l else lo
    if !groupOk c.w i.toNat n then c.illegalOperand 0 c.w.path
    else if (poisonedV c.w ((List.range n).map (fun k => i.toNat + k))).getLsbD l then c.fault 0x26 0 0 (oneLane l)
    else c.retire (advance 4 (writeS (bump c.w) d.toNat x)) []

/-- SETW (14 R342): the grant at the team's entry address; elsewhere an illegal instruction, SUB 2. -/
def execSetw (d : BitVec 6) (_e : BitVec 1) (_q : BitVec 2) (s : State) : Out :=
  withCx s fun c =>
    if pathPc c.w != c.t.entry then c.fault 0x20 2 0 c.w.path
    else c.retire (advance 4 (writeS (bump c.w) d.toNat (BitVec.ofNat 64 c.w.grant))) []

end Sys2Proof.Machine
end

