-- ==== Sys2Proof/Machine/Dispatch.lean ====
section
/-!
DEFINITION. One arm per constructor of Instr, each one call of its meaning.
-/
namespace Sys2Proof.Machine

/-- What an instruction or event does in a state. -/
def exec (i : Instr) (s : State) : Host.Outcome State Fault Refusal :=
  match i with
  | .vadd pre d a b => Sys2Proof.Machine.execVadd pre d a b s
  | .vsub pre d a b => Sys2Proof.Machine.execVsub pre d a b s
  | .vmul pre d a b => Sys2Proof.Machine.execVmul pre d a b s
  | .vmulhI pre d a b => Sys2Proof.Machine.execVmulhI pre d a b s
  | .vmulhN pre d a b => Sys2Proof.Machine.execVmulhN pre d a b s
  | .vmad pre d a b => Sys2Proof.Machine.execVmad pre d a b s
  | .vminI pre d a b => Sys2Proof.Machine.execVminI pre d a b s
  | .vminN pre d a b => Sys2Proof.Machine.execVminN pre d a b s
  | .vmaxI pre d a b => Sys2Proof.Machine.execVmaxI pre d a b s
  | .vmaxN pre d a b => Sys2Proof.Machine.execVmaxN pre d a b s
  | .vabs pre d a => Sys2Proof.Machine.execVabs pre d a s
  | .vclz pre d a => Sys2Proof.Machine.execVclz pre d a s
  | .vpopc pre d a => Sys2Proof.Machine.execVpopc pre d a s
  | .vand pre d a b => Sys2Proof.Machine.execVand pre d a b s
  | .vor pre d a b => Sys2Proof.Machine.execVor pre d a b s
  | .vxor pre d a b => Sys2Proof.Machine.execVxor pre d a b s
  | .vshl pre d a b => Sys2Proof.Machine.execVshl pre d a b s
  | .vshr pre d a b => Sys2Proof.Machine.execVshr pre d a b s
  | .vsar pre d a b => Sys2Proof.Machine.execVsar pre d a b s
  | .vbfeI pre d a b => Sys2Proof.Machine.execVbfeI pre d a b s
  | .vbfeN pre d a b => Sys2Proof.Machine.execVbfeN pre d a b s
  | .vbfi pre d a b => Sys2Proof.Machine.execVbfi pre d a b s
  | .vaddi pre d a i_ => Sys2Proof.Machine.execVaddi pre d a i_ s
  | .vandi pre d a i_ => Sys2Proof.Machine.execVandi pre d a i_ s
  | .vori pre d a i_ => Sys2Proof.Machine.execVori pre d a i_ s
  | .vxori pre d a i_ => Sys2Proof.Machine.execVxori pre d a i_ s
  | .vshlImm pre d a n => Sys2Proof.Machine.execVshlImm pre d a n s
  | .vshrImm pre d a n => Sys2Proof.Machine.execVshrImm pre d a n s
  | .vsarImm pre d a n => Sys2Proof.Machine.execVsarImm pre d a n s
  | .vmovi pre d i_ => Sys2Proof.Machine.execVmovi pre d i_ s
  | .vfadd pre d a b => Sys2Proof.Machine.execVfadd pre d a b s
  | .vfsub pre d a b => Sys2Proof.Machine.execVfsub pre d a b s
  | .vfmul pre d a b => Sys2Proof.Machine.execVfmul pre d a b s
  | .vffma pre d a b => Sys2Proof.Machine.execVffma pre d a b s
  | .vfmin pre d a b => Sys2Proof.Machine.execVfmin pre d a b s
  | .vfmax pre d a b => Sys2Proof.Machine.execVfmax pre d a b s
  | .vrcp pre d a => Sys2Proof.Machine.execVrcp pre d a s
  | .vrsq pre d a => Sys2Proof.Machine.execVrsq pre d a s
  | .vsqrt pre d a => Sys2Proof.Machine.execVsqrt pre d a s
  | .vexp2 pre d a => Sys2Proof.Machine.execVexp2 pre d a s
  | .vlog2 pre d a => Sys2Proof.Machine.execVlog2 pre d a s
  | .vsinp pre d a => Sys2Proof.Machine.execVsinp pre d a s
  | .vact pre d a => Sys2Proof.Machine.execVact pre d a s
  | .vpkadd pre d a b t => Sys2Proof.Machine.execVpkadd pre d a b t s
  | .vpkmul pre d a b t => Sys2Proof.Machine.execVpkmul pre d a b t s
  | .vpkfma pre d a b t => Sys2Proof.Machine.execVpkfma pre d a b t s
  | .vcvt pre d a c t x i_ s_ => Sys2Proof.Machine.execVcvt pre d a c t x i_ s_ s
  | .vcmp pre t p a b c => Sys2Proof.Machine.execVcmp pre t p a b c s
  | .vsel pre d a b p => Sys2Proof.Machine.execVsel pre d a b p s
  | .vmov pre d a => Sys2Proof.Machine.execVmov pre d a s
  | .vmovLo pre d s_ => Sys2Proof.Machine.execVmovLo pre d s_ s
  | .vmovHi pre d s_ => Sys2Proof.Machine.execVmovHi pre d s_ s
  | .vmovLane pre d => Sys2Proof.Machine.execVmovLane pre d s
  | .vmovTid pre d => Sys2Proof.Machine.execVmovTid pre d s
  | .plog pre d a b t => Sys2Proof.Machine.execPlog pre d a b t s
  | .elect pre d => Sys2Proof.Machine.execElect pre d s
  | .vld pre d b o z u => Sys2Proof.Machine.execVld pre d b o z u s
  | .vst pre d b o z u => Sys2Proof.Machine.execVst pre d b o z u s
  | .vatom pre d b o p => Sys2Proof.Machine.execVatom pre d b o p s
  | .gath pre d b o u => Sys2Proof.Machine.execGath pre d b o u s
  | .drdBlk pre d a k => Sys2Proof.Machine.execDrdBlk pre d a k s
  | .drdTrp pre d a k => Sys2Proof.Machine.execDrdTrp pre d a k s
  | .dwr pre d a k => Sys2Proof.Machine.execDwr pre d a k s
  | .shfl pre d a b s_ m => Sys2Proof.Machine.execShfl pre d a b s_ m s
  | .vred pre d a s_ m => Sys2Proof.Machine.execVred pre d a s_ m s
  | .vscan pre d a s_ m => Sys2Proof.Machine.execVscan pre d a s_ m s
  | .vote pre d p s_ m => Sys2Proof.Machine.execVote pre d p s_ m s
  | .bcast pre d a l s_ => Sys2Proof.Machine.execBcast pre d a l s_ s
  | .mxissue pre a => Sys2Proof.Machine.execMxissue pre a s
  | .accrd pre d a => Sys2Proof.Machine.execAccrd pre d a s
  | .accwr pre d a => Sys2Proof.Machine.execAccwr pre d a s
  | .jenr j o => Sys2Proof.Machine.execJenr j o s
  | .jwait j => Sys2Proof.Machine.execJwait j s
  | .brv p n o => Sys2Proof.Machine.execBrv p n o s
  | .exit pre => Sys2Proof.Machine.execExit pre s
  | .spawn pre a b => Sys2Proof.Machine.execSpawn pre a b s
  | .uadd d a b => Sys2Proof.Machine.execUadd d a b s
  | .usub d a b => Sys2Proof.Machine.execUsub d a b s
  | .umul d a b => Sys2Proof.Machine.execUmul d a b s
  | .umulhI d a b => Sys2Proof.Machine.execUmulhI d a b s
  | .umulhN d a b => Sys2Proof.Machine.execUmulhN d a b s
  | .uand d a b => Sys2Proof.Machine.execUand d a b s
  | .uor d a b => Sys2Proof.Machine.execUor d a b s
  | .uxor d a b => Sys2Proof.Machine.execUxor d a b s
  | .ushl d a b => Sys2Proof.Machine.execUshl d a b s
  | .ushr d a b => Sys2Proof.Machine.execUshr d a b s
  | .usar d a b => Sys2Proof.Machine.execUsar d a b s
  | .uminI d a b => Sys2Proof.Machine.execUminI d a b s
  | .uminN d a b => Sys2Proof.Machine.execUminN d a b s
  | .umaxI d a b => Sys2Proof.Machine.execUmaxI d a b s
  | .umaxN d a b => Sys2Proof.Machine.execUmaxN d a b s
  | .umov d a => Sys2Proof.Machine.execUmov d a s
  | .uaddi d a i_ => Sys2Proof.Machine.execUaddi d a i_ s
  | .uandi d a i_ => Sys2Proof.Machine.execUandi d a i_ s
  | .uori d a i_ => Sys2Proof.Machine.execUori d a i_ s
  | .uxori d a i_ => Sys2Proof.Machine.execUxori d a i_ s
  | .ushlImm d a n => Sys2Proof.Machine.execUshlImm d a n s
  | .ushrImm d a n => Sys2Proof.Machine.execUshrImm d a n s
  | .usarImm d a n => Sys2Proof.Machine.execUsarImm d a n s
  | .umovi d i_ => Sys2Proof.Machine.execUmovi d i_ s
  | .ulit d h lit => Sys2Proof.Machine.execUlit d h lit s
  | .ufromv d i_ p => Sys2Proof.Machine.execUfromv d i_ p s
  | .uld d a z o => Sys2Proof.Machine.execUld d a z o s
  | .ust d a z o => Sys2Proof.Machine.execUst d a z o s
  | .uatom d a p s_ o => Sys2Proof.Machine.execUatom d a p s_ o s
  | .fence s_ k => Sys2Proof.Machine.execFence s_ k s
  | .ub c a b o => Sys2Proof.Machine.execUb c a b o s
  | .bra o => Sys2Proof.Machine.execBra o s
  | .call o => Sys2Proof.Machine.execCall o s
  | .jmpi a => Sys2Proof.Machine.execJmpi a s
  | .ret => Sys2Proof.Machine.execRet s
  | .bararr a b => Sys2Proof.Machine.execBararr a b s
  | .barwait a b => Sys2Proof.Machine.execBarwait a b s
  | .barsync a b => Sys2Proof.Machine.execBarsync a b s
  | .setw d e q => Sys2Proof.Machine.execSetw d e q s
  | .vshrink f c => Sys2Proof.Machine.execVshrink f c s
  | .vgrow f c => Sys2Proof.Machine.execVgrow f c s
  | .sread d s_ => Sys2Proof.Machine.execSread d s_ s
  | .swrite a s_ => Sys2Proof.Machine.execSwrite a s_ s
  | .trap c => Sys2Proof.Machine.execTrap c s
  | .tret k => Sys2Proof.Machine.execTret k s
  | .bkpt => Sys2Proof.Machine.execBkpt s
  | .nop => Sys2Proof.Machine.execNop s
  | .waitc c n => Sys2Proof.Machine.execWaitc c n s
  | .waitt d a l => Sys2Proof.Machine.execWaitt d a l s
  | .tfirst d => Sys2Proof.Machine.execTfirst d s
  | .tclr a => Sys2Proof.Machine.execTclr a s
  | .tdset t w s_ => Sys2Proof.Machine.execTdset t w s_ s
  | .tdget t w s_ => Sys2Proof.Machine.execTdget t w s_ s
  | .tdinv t => Sys2Proof.Machine.execTdinv t s
  | .tdinvAll => Sys2Proof.Machine.execTdinvAll s
  | .tdpool t i_ => Sys2Proof.Machine.execTdpool t i_ s
  | .cpy d s_ b => Sys2Proof.Machine.execCpy d s_ b s
  | .wload w t s_ => Sys2Proof.Machine.execWload w t s_ s
  | .mxmeta t s_ => Sys2Proof.Machine.execMxmeta t s_ s
  | .accld t a s_ => Sys2Proof.Machine.execAccld t a s_ s
  | .accst t a s_ => Sys2Proof.Machine.execAccst t a s_ s
  | .accz f n => Sys2Proof.Machine.execAccz f n s
  | .coll t b => Sys2Proof.Machine.execColl t b s
  | .actld t => Sys2Proof.Machine.execActld t s
  | .oapp d c n => Sys2Proof.Machine.execOapp d c n s
  | .odecl n => Sys2Proof.Machine.execOdecl n s
  | .mbxwait m => Sys2Proof.Machine.execMbxwait m s
  | .mbxpop d m => Sys2Proof.Machine.execMbxpop d m s
  | .cwb d a s_ => Sys2Proof.Machine.execCwb d a s_ s
  | .cinv d a s_ => Sys2Proof.Machine.execCinv d a s_ s
  | .pref d a l => Sys2Proof.Machine.execPref d a l s
  | .pathYield core slot => Sys2Proof.Machine.execPathYield core slot s
  | .warpMoveIn core bank => Sys2Proof.Machine.execWarpMoveIn core bank s
  | .warpPark core slot => Sys2Proof.Machine.execWarpPark core slot s
  | .parkedLineArrival core slot => Sys2Proof.Machine.execParkedLineArrival core slot s
  | .warpMoveOutIdle core slot => Sys2Proof.Machine.execWarpMoveOutIdle core slot s
  | .warpMoveOutTenure core slot => Sys2Proof.Machine.execWarpMoveOutTenure core slot s
  | .bankSwap core => Sys2Proof.Machine.execBankSwap core s
  | .backgroundSpill core bank => Sys2Proof.Machine.execBackgroundSpill core bank s
  | .deferredError => Sys2Proof.Machine.execDeferredError s
  | .spawnBinTimer core bin => Sys2Proof.Machine.execSpawnBinTimer core bin s
  | .gatherComplete op => Sys2Proof.Machine.execGatherComplete op s
  | .copyBurst op => Sys2Proof.Machine.execCopyBurst op s
  | .asyncCompletionReport op => Sys2Proof.Machine.execAsyncCompletionReport op s
  | .permitRequest op => Sys2Proof.Machine.execPermitRequest op s
  | .permitGrant die => Sys2Proof.Machine.execPermitGrant die s
  | .permitWaitLimit die => Sys2Proof.Machine.execPermitWaitLimit die s
  | .mePassStart me => Sys2Proof.Machine.execMePassStart me s
  | .mePassEnd me residue => Sys2Proof.Machine.execMePassEnd me residue s
  | .weightLoad op => Sys2Proof.Machine.execWeightLoad op s
  | .actldFlip op => Sys2Proof.Machine.execActldFlip op s
  | .collStep op agree sameKey => Sys2Proof.Machine.execCollStep op agree sameKey s
  | .collTimeout op => Sys2Proof.Machine.execCollTimeout op s
  | .engineStop slice ctx unit => Sys2Proof.Machine.execEngineStop slice ctx unit s
  | .coreReset slice value => Sys2Proof.Machine.execCoreReset slice value s
  | .coreControlError core => Sys2Proof.Machine.execCoreControlError core s
  | .quiesce slice ctx => Sys2Proof.Machine.execQuiesce slice ctx s
  | .quiesceTrapDelivery slice ctx core => Sys2Proof.Machine.execQuiesceTrapDelivery slice ctx core s
  | .quiesceComplete slice ctx => Sys2Proof.Machine.execQuiesceComplete slice ctx s
  | .quiesceBudgetExpire slice ctx => Sys2Proof.Machine.execQuiesceBudgetExpire slice ctx s
  | .exportCtx slice ctx => Sys2Proof.Machine.execExportCtx slice ctx s
  | .pagex slice ctx => Sys2Proof.Machine.execPagex slice ctx s
  | .importCtx slice ctx => Sys2Proof.Machine.execImportCtx slice ctx s
  | .pagei slice ctx => Sys2Proof.Machine.execPagei slice ctx s
  | .resume slice ctx => Sys2Proof.Machine.execResume slice ctx s
  | .dropCtx slice ctx => Sys2Proof.Machine.execDropCtx slice ctx s
  | .sliceReset slice => Sys2Proof.Machine.execSliceReset slice s
  | .flrVf slice => Sys2Proof.Machine.execFlrVf slice s
  | .flrPf0 port => Sys2Proof.Machine.execFlrPf0 port s
  | .s2Invalidation slice => Sys2Proof.Machine.execS2Invalidation slice s
  | .s1Invalidation slice value => Sys2Proof.Machine.execS1Invalidation slice value s
  | .invalidationComplete slice stage2 => Sys2Proof.Machine.execInvalidationComplete slice stage2 s
  | .contextCreate slice ctx => Sys2Proof.Machine.execContextCreate slice ctx s
  | .contextRemove slice ctx => Sys2Proof.Machine.execContextRemove slice ctx s
  | .evtailWrite slice value => Sys2Proof.Machine.execEvtailWrite slice value s
  | .evstatWrite slice value => Sys2Proof.Machine.execEvstatWrite slice value s
  | .mailboxEnable slice mbox value => Sys2Proof.Machine.execMailboxEnable slice mbox value s
  | .mailboxDisable slice mbox => Sys2Proof.Machine.execMailboxDisable slice mbox s
  | .kick slice mbox => Sys2Proof.Machine.execKick slice mbox s
  | .sealRetry slice mbox => Sys2Proof.Machine.execSealRetry slice mbox s
  | .fetchContinue slice mbox => Sys2Proof.Machine.execFetchContinue slice mbox s
  | .launchRecord slice mbox => Sys2Proof.Machine.execLaunchRecord slice mbox s
  | .waitRecord slice mbox => Sys2Proof.Machine.execWaitRecord slice mbox s
  | .waitConditionMet slice mbox => Sys2Proof.Machine.execWaitConditionMet slice mbox s
  | .signalRecord slice mbox => Sys2Proof.Machine.execSignalRecord slice mbox s
  | .messageRecord slice mbox => Sys2Proof.Machine.execMessageRecord slice mbox s
  | .messageDelivery slice mbox => Sys2Proof.Machine.execMessageDelivery slice mbox s
  | .recordStart slice mbox => Sys2Proof.Machine.execRecordStart slice mbox s
  | .recordComplete slice mbox => Sys2Proof.Machine.execRecordComplete slice mbox s
  | .teamPlacement slice => Sys2Proof.Machine.execTeamPlacement slice s
  | .placementReservation slice grid => Sys2Proof.Machine.execPlacementReservation slice grid s
  | .residentGridStart slice grid => Sys2Proof.Machine.execResidentGridStart slice grid s
  | .teamExit core team => Sys2Proof.Machine.execTeamExit core team s
  | .gridComplete slice grid => Sys2Proof.Machine.execGridComplete slice grid s
  | .clusterRetire slice grid => Sys2Proof.Machine.execClusterRetire slice grid s
  | .powerUp => Sys2Proof.Machine.execPowerUp s
  | .coldReset => Sys2Proof.Machine.execColdReset s
  | .deviceReset port value => Sys2Proof.Machine.execDeviceReset port value s
  | .perst port => Sys2Proof.Machine.execPerst port s
  | .portLinkReturn port => Sys2Proof.Machine.execPortLinkReturn port s
  | .hostAccessTimeout port => Sys2Proof.Machine.execHostAccessTimeout port s
  | .sensorUpdate index reading => Sys2Proof.Machine.execSensorUpdate index reading s
  | .powerWindowEnd meanWatts => Sys2Proof.Machine.execPowerWindowEnd meanWatts s
  | .laysemRead port => Sys2Proof.Machine.execLaysemRead port s
  | .laysemWrite port value => Sys2Proof.Machine.execLaysemWrite port value s
  | .prepare port value => Sys2Proof.Machine.execPrepare port value s
  | .commit port value => Sys2Proof.Machine.execCommit port value s
  | .abort port value => Sys2Proof.Machine.execAbort port value s
  | .layoutPhaseEnd => Sys2Proof.Machine.execLayoutPhaseEnd s
  | .olsanWatchdogReset => Sys2Proof.Machine.execOlsanWatchdogReset s
  | .fwVerify port value => Sys2Proof.Machine.execFwVerify port value s
  | .fwActivate port value => Sys2Proof.Machine.execFwActivate port value s
  | .dbgnonceRead port => Sys2Proof.Machine.execDbgnonceRead port s
  | .debugUnlock port value => Sys2Proof.Machine.execDebugUnlock port value s
  | .healthReport slice => Sys2Proof.Machine.execHealthReport slice s
  | .keyRotation slice => Sys2Proof.Machine.execKeyRotation slice s
  | .keySweepComplete slice => Sys2Proof.Machine.execKeySweepComplete slice s
  | .migrationKeyProvision slice key => Sys2Proof.Machine.execMigrationKeyProvision slice key s
  | .keyExchange slice nonce => Sys2Proof.Machine.execKeyExchange slice nonce s
  | .getMeasurements slice => Sys2Proof.Machine.execGetMeasurements slice s
  | .lockInterfaceRequest slice => Sys2Proof.Machine.execLockInterfaceRequest slice s
  | .startInterfaceRequest slice => Sys2Proof.Machine.execStartInterfaceRequest slice s
  | .stopInterfaceRequest slice => Sys2Proof.Machine.execStopInterfaceRequest slice s
  | .atsInvalidation slice page => Sys2Proof.Machine.execAtsInvalidation slice page s
  | .xlateRequest slice => Sys2Proof.Machine.execXlateRequest slice s
  | .xlateRelease slice => Sys2Proof.Machine.execXlateRelease slice s
  | .routingEntryWrite slice index value => Sys2Proof.Machine.execRoutingEntryWrite slice index value s
  | .ualinkRequest slice kgen req => Sys2Proof.Machine.execUalinkRequest slice kgen req s
  | .hostRequest port req => Sys2Proof.Machine.execHostRequest port req s
  | .ualinkPortDown link => Sys2Proof.Machine.execUalinkPortDown link s
  | .deviceError => Sys2Proof.Machine.execDeviceError s
  | .registerWrite target value => Sys2Proof.Machine.execRegisterWrite target value s
  | .illegalInstruction sub => Sys2Proof.Machine.execIllegalInstruction sub s
  | .portLinkDown port => Sys2Proof.Machine.execPortLinkDown port s
  | .storeBufferDrain core index home => Sys2Proof.Machine.execStoreBufferDrain core index home s
  | .memoryUncorrectableError line onWriteBack => Sys2Proof.Machine.execMemoryUncorrectableError line onWriteBack s
  | .registerEccError core slot file key => Sys2Proof.Machine.execRegisterEccError core slot file key s
  | .routingKeyInstall slice index kgen => Sys2Proof.Machine.execRoutingKeyInstall slice index kgen s
  | .settingReachesCore core ctx cls => Sys2Proof.Machine.execSettingReachesCore core ctx cls s

end Sys2Proof.Machine
end

