-- ==== Sys2Proof/Machine/Turns.lean ====
section
/-!
DEFINITION. Turns (log 1): which warp, event or cache action the machine does next, and what a turn of each kind does.
-/
namespace Sys2Proof.Machine

/-- The instruction at a warp's path fetched, decoded and run; a poisoned PC is a fault (03 R54). -/
def runPath (c : Cx) : Out :=
  if poisonedPc c.w != 0 then c.fault 0x26 2 0 (poisonedPc c.w)
  else
    match meet c.s c.core c.w.slice c.w.ctx (pathPc c.w) with
    | .instr i s1 => exec i s1
    | .illegal sub s1 => exec (.illegalInstruction sub) s1
    | .waits => c.stall
    | .fails f => takeFault { c with s := tellTag c.s c.w.slice f.tag } f.code f.sub 0 false c.w.path f.addr f.ia

/-- A warp's turn: a path yield that is due, else an event trap that is pending, else the instruction of its path. -/
def warpTurn (core slot : Nat) (s : State) : Out :=
  match getWarp s core slot with
  | none => .next s
  | some w =>
    if !warpCanRun s core w then .next s
    else
      let w1 := ensurePath w
      let s1 := { putWarp s core slot w1 with cur := (core, slot) }
      if yieldDue w1 then exec (.pathYield core slot) s1
      else
        let c : Cx := { s := s1, core := core, slot := slot, w := w1, t := getTeam s1 core w1.team }
        match eventTrap c with
        | some o => o
        | none => runPath (dispatchHead c)

/-- n bytes from a key up as a core's load reads them, with the place of each mark. -/
def readEarly (s : State) (core sl lane k n : Nat) : Bound :=
  let l := lineFor s core sl (lineOf k)
  { lane := lane, key := k, bytes := (loadBytes s core sl k n).bytes,
    marks := (List.range n).filterMap (fun i => ((match newestByte (getCore s core) (k + i) with
      | some b => b.2.1
      | none => tfind l.marks (k + i))).map (fun m => (k + i, m))) }

/-- A lane's load has read n bytes from a key up, in place of what it had read there before. -/
def bindLoad (s : State) (core slot lane k n : Nat) (w : Warp) : State :=
  if n = 0 || lineOf (k + n - 1) != lineOf k || (loadBytes s core w.slice k n).poisoned || loadWaits s core w.slice k n then s
  else
    let w1 := dropBound (if lane = 64 then 0 else oneLane lane) k n w
    putWarp s core slot { w1 with bound := w1.bound ++ [readEarly s core w.slice lane k n] }

/-- A load of a lane executes before it retires (03 R48): its line is in the L1 from now on, as a load that is discarded leaves it too, and
what it reads stands until it retires, an ordering point makes it read anew, or it is discarded (log 99). Lane 64 is a uniform load's. -/
def earlyLoad (core slot lane : Nat) (a : DWord) (size : Nat) (s : State) : Out :=
  match getWarp s core slot with
  | none => .next s
  | some w =>
    if !warpCanRun s core w then .next s
    else
      let s1 := prefLine { s := s, core := core, slot := slot, w := w, t := getTeam s core w.team } 0 s a
      match translate s1 core w.slice w.ctx a .read with
      | .error _ => .next s1
      | .ok (k, s2) => .next (bindLoad s2 core slot lane k size w)

/-- Whether an instruction is an atomic (15 R377, R363). -/
def isAtomic (i : Instr) : Bool :=
  match i with
  | .vatom _ _ _ _ _ => true
  | .uatom _ _ _ _ _ => true
  | _ => false

/-- Instructions that a warp has retired. -/
def retiredBy (s : State) (core slot : Nat) : DWord := ((getWarp s core slot).map (fun w => w.retired)).getD 0

/-- The atomic at a warp's head passes its checks, if they let it retire now (15 R379): from here on it is performed whatever becomes of its
lines. -/
def checkAtomic (core slot : Nat) (s : State) : Out :=
  match getWarp s core slot with
  | none => .next s
  | some w =>
    if !warpCanRun s core w || w.path == 0 || yieldDue w || poisonedPc w != 0 then .next s
    else
      let c := dispatchHead { s := { s with cur := (core, slot) }, core := core, slot := slot, w := w, t := getTeam s core w.team }
      match meet c.s core w.slice w.ctx (pathPc w) with
      | .instr i s1 =>
        match isAtomic i, exec i s1 with
        | true, .next s2 =>
          if retiredBy s2 core slot = w.retired then .next s else .next (putWarp s1 core slot { c.w with checked := true })
        | _, _ => .next s
      | .illegal _ _ | .waits | .fails _ => .next s

/-- What follows an outcome that is a next state. -/
def andThen (o : Out) (f : State → Out) : Out :=
  match o with
  | .next s => f s
  | .fault e => .fault e
  | .refused r => .refused r

/-- The slot of the warp that holds an active slot of a core's running bank (03 R62). -/
def warpAtActive (s : State) (core a : Nat) : Option Nat :=
  ((getCore s core).warps.find? (fun e => e.2.loc == .active a && e.2.bank == (getCore s core).running)).map (fun e => e.1)

/-- The instruction at a warp's path reads a special register that an SWRITE of the warp in the same cycle has still to write (05 R115): it
retires in a later cycle. -/
def readsLate (s : State) (core slot : Nat) : Bool :=
  (getCore s core).late.any (fun e => e.1 == slot) &&
    match getWarp s core slot with
    | none => false
    | some w =>
      match meet s core w.slice w.ctx (pathPc w) with
      | .instr (.sread _ _) _ => true
      | .instr (.swrite _ _) _ => true
      | _ => false

/-- The turns of some active slots of a core, in ascending order, within one arithmetic cycle (05 R115). -/
def turnsOf (core : Nat) : List Nat → State → Out
  | [], s => .next s
  | a :: t, s =>
    match warpAtActive s core a with
    | none => turnsOf core t s
    | some slot => andThen (if readsLate s core slot then .next s else warpTurn core slot s) (turnsOf core t)

/-- Warps of a core that retire in the same arithmetic cycle, at most two instructions each (03 R45, 05 R115): a slot that actives names
twice has two turns (log 104). -/
def together (core : Nat) (actives : List Nat) (s : State) : Out :=
  let s1 := putCore s core { getCore s core with cycle := some [], late := [] }
  andThen (turnsOf core ((List.range 8).flatMap (fun a => List.replicate (min 2 (actives.count a)) a)) s1)
    (fun s2 => .next (closeCycle s2 core ((sliceOfCore s core).getD 0)))

/-- A core gives up the next line of a line's set (07 R149; log 100). -/
def evictL1 (core line : Nat) (s : State) : Out :=
  match nextOut (fun x => x.keep) (fun x => x.use) ((getCore s core).clean.filter (fun e => Config.l1Set e.1 == Config.l1Set line)) with
  | none => .next s
  | some e => .next (dropLine s core e.1)

/-- An LLC gives up a line, which its stack then holds alone (07 R152). -/
def evictLlc (line : Nat) (s : State) : Out := .next { s with llc := tdel s.llc (lineOf line) }

/-- A unit gives up the translations it keeps (07 R171). -/
def dropTlb (unit : Nat) (s : State) : Out := .next { s with tlb := s.tlb.filter (fun e => e.unit != unit) }

/-- One turn. -/
def runTurn (t : Turn) (s : State) : Out :=
  match t with
  | .warp core slot => warpTurn core slot s
  | .event i => exec i s
  | .early core slot lane a size => earlyLoad core slot lane a size s
  | .checkAtomic core slot => checkAtomic core slot s
  | .evict core line => evictL1 core line s
  | .evictL2 slice line => .next (l2Evict s slice line)
  | .evictLlc line => evictLlc line s
  | .together core actives => together core actives s
  | .dropTlb unit => dropTlb unit s
  | .corrected slice => .next (countCorrected s slice)

/-- Every warp that can run, by core and slot. -/
def runningWarps (s : State) : List (Nat × Nat) :=
  s.cores.flatMap (fun c => (c.2.warps.filter (fun w => warpCanRun s c.1 w.2)).map (fun w => (c.1, w.1)))

/-- The warp that runs next where the agenda names no turn: the first after the last one that ran, in the order of cores and slots, so
that every warp that can run comes to issue (02 R40; log 1). -/
def nextWarp (s : State) : Option (Nat × Nat) :=
  match (runningWarps s).find? (fun p => decide (s.cur.1 < p.1 ∨ (s.cur.1 = p.1 ∧ s.cur.2 < p.2))) with
  | some p => some p
  | none => (runningWarps s).head?

/-- The warp that had the last turn gives up its slot to a ready one (03 R64). -/
def turnsOver (s : State) : Option Instr :=
  match getWarp s s.cur.1 s.cur.2 with
  | none => none
  | some w => if inFast w && slotWanted s s.cur.1 w.bank then some (.warpMoveOutTenure s.cur.1 s.cur.2) else none

/-- A core swaps its banks, moves in its longest-waiting ready warp, or makes place for it with an active warp that retires nothing (03
R62, R64; 10 R240). -/
def coreMove (s : State) (core : Nat) : Option Instr :=
  let c := getCore s core
  if swapWanted s core then some (.bankSwap core)
  else if movesIn s core c.running then some (.warpMoveIn core c.running)
  else if slotWanted s core c.running then (idleActive s core c.running).map (fun k => .warpMoveOutIdle core k)
  else none

/-- What the cores' schedulers do next by themselves where the agenda names no turn (02 R40; 03 R62, R64; 10 R240; log 1). -/
def nextMove (s : State) : Option Instr :=
  match s.cores.findSome? (fun c => coreMove s c.1) with
  | some i => some i
  | none => turnsOver s

/-- The next turn of the agenda; with none, what the schedulers do next, else the turn of the next warp that can run, else nothing. -/
def nextTurn (s : State) : Out :=
  match s.agenda with
  | t :: rest => runTurn t { s with agenda := rest }
  | [] =>
    match nextMove s with
    | some i => exec i s
    | none =>
      match nextWarp s with
      | none => .next s
      | some (core, slot) => warpTurn core slot s

/-- Where the stage of `stageWord` keeps its code. -/
def stageCode : Nat := 0x40000

/-- The page tables of `stageWord` (07 R169, R170): stage-1 tables at 0x8000 and 0x10000, stage-2 tables at 0x18000 and 0x20000, each
with one table entry and one 8 GiB leaf that maps an address to itself. -/
def stageTables (m : Memory) : Memory :=
  mwriteN (mwriteN (mwriteN (mwriteN m 0x8000 (natBytes 8 0x10001)) 0x10000 (natBytes 8 0xF)) 0x18000 (natBytes 8 0x20001))
    0x20000 (natBytes 8 0x1F)

/-- An instruction's words put where the next turn fetches (log 20): slice 0 holds granule 0, its context 0 runs with the tables
of `stageTables`, and one warp of 16 threads on core 0 is at its kernel's entry, at the code. -/
def stageWord (s : State) (nbits w : Nat) : State :=
  let code := BitVec.ofNat 64 stageCode
  let warp : Warp := { present := lanesBelow 16, pcs := laneList (fun _ => code), path := lanesBelow 16, loc := .active 0 }
  let team : Team := { shape := (16, 1, 1), threads := 16, entry := code }
  { s with
    mem := mwriteN (stageTables s.mem) stageCode (natBytes 8 (w % 2 ^ nbits))
    poison := tkeep s.poison (fun l _ => decide (0x41000 ≤ l))
    l2 := tkeep s.l2 (fun k _ => k % 128 != 0)
    granMap := setAt s.granMap 0 0
    cores := tset s.cores 0 { bank0 := { owner := some 0 }, warps := [(0, warp)], teams := [(0, team)] }
    slices := tset s.slices 0 { s2root := 0x18000, s2enable := true, ctxs := [(0, { state := 2, s1root := 0x8000 })] }
    tlb := s.tlb.filter (fun e => e.slice != 0)
    agenda := [.warp 0 0] }

end Sys2Proof.Machine
end

