-- ==== Sys2Proof/Machine/Step.lean ====
section
/-!
DEFINITION. The step: one turn of the machine. And the state in which the next step runs a given instruction.
-/
namespace Sys2Proof.Machine

/-- One step of the module: the next turn (log 1). -/
def step (s : State) : Host.Outcome State Fault Refusal := nextTurn s

/-- The state with an instruction's words where step fetches next (log 20). -/
def State.withFetchWord (s : State) (nbits w : Nat) : State := stageWord s nbits w

end Sys2Proof.Machine
end

