-- ==== Sys2Proof/Safety.lean ====
section
/-!
DEFINITION. What claims about runs speak of: completing, runs of several steps, and the states in which data is in its canonical form.
-/
namespace Sys2Proof.Machine

/-- An instruction or event answers a next state. -/
def Completes (i : Instr) (s : State) : Prop := ∃ t, exec i s = .next t

/-- The state after n steps that all answer a next state. -/
def runFor : Nat → State → Option State
  | 0, s => some s
  | n + 1, s =>
    match step s with
    | .next t => runFor n t
    | .fault _ => none
    | .refused _ => none

/-- A run of n steps is safe: no step of it faults or is refused. -/
def SafeFor (n : Nat) (s : State) : Prop := (runFor n s).isSome = true

/-- An instruction or an illegal word: something that a warp runs. -/
def needsWarp (i : Instr) : Bool :=
  match i with
  | .illegalInstruction _ => true
  | _ => i.hasWords

/-- A turn that no run of the module's own agents lacks a warp for: a warp's turn, an event of another agent, or a cache's. -/
def turnOk : Turn → Bool
  | .warp _ _ => true
  | .event i => !needsWarp i
  | .early _ _ _ _ _ => true
  | .checkAtomic _ _ => true
  | .evict _ _ => true
  | .evictL2 _ _ => true
  | .evictLlc _ => true
  | .together _ _ => true
  | .dropTlb _ => true
  | .corrected _ => true

/-- A warp that holds the turn, with a running path: what every warp instruction needs. -/
def OnTurn (s : State) (w : Warp) : Prop := getWarp s s.cur.1 s.cur.2 = some w ∧ w.path ≠ 0

/-- What a turn leaves alone beside its own warp: memory, every other core and warp, the count state of other contexts, and every
slice but for the events that a crossed threshold raises on the warp's own (05 R113, R114). Where retirements share an arithmetic cycle, the
core notes this one among them (05 R115). -/
structure TurnFrame (s t : State) (w : Warp) : Prop where
  memory : ∀ a, mread t.mem a = mread s.mem a
  rest : { t with cores := s.cores, slices := s.slices } = s
  cores : ∀ n, n ≠ s.cur.1 → getCore t n = getCore s n
  core : { getCore t s.cur.1 with
      warps := (getCore s s.cur.1).warps, exc := (getCore s s.cur.1).exc, cycle := (getCore s s.cur.1).cycle } = getCore s s.cur.1
  cycle : (getCore t s.cur.1).cycle = (getCore s s.cur.1).cycle.map (fun cs => cs ++ [w.ctx])
  warps : ∀ k, k ≠ s.cur.2 → getWarp t s.cur.1 k = getWarp s s.cur.1 k
  counts : ∀ k, k / 8 ≠ w.ctx → tfind (getCore t s.cur.1).exc k = tfind (getCore s s.cur.1).exc k
  slices : ∀ n, n ≠ w.slice → getSlice t n = getSlice s n
  slice : { getSlice t w.slice with
      evstat := (getSlice s w.slice).evstat, evhead := (getSlice s w.slice).evhead, events := (getSlice s w.slice).events,
      msixWaiting := (getSlice s w.slice).msixWaiting, msixSent := (getSlice s w.slice).msixSent } = getSlice s w.slice

/-- The count state of a class after a retirement that counts n events of it (05 R113): the events, then the retirement in the class's
window, but for one that shares its cycle with others, whose windows wait for the cycle's end (05 R115). -/
def countedClass (shared : Bool) (e : ExcState) (n : Nat) : ExcState :=
  (if shared then id else stepWindow) (if n = 0 then e else (countOne e n).1)

/-- The events of a retirement are counted on the turn's core for the warp's context (05 R111, R113). -/
def EventsCounted (s t : State) (w : Warp) (ev : Events) : Prop :=
  ∀ cls, cls < 8 → excGet t s.cur.1 w.slice w.ctx cls =
    countedClass (getCore s s.cur.1).cycle.isSome (excGet s s.cur.1 w.slice w.ctx cls) (ev.filter (· == cls)).length

/-- An instruction retires from the turn's warp and counts some events: it answers a next state whose frame is the turn's and whose warp
is as P says. -/
def Retires (i : Instr) (s : State) (w : Warp) (ev : Events) (P : Warp → Prop) : Prop :=
  ∃ t w', exec i s = .next t ∧ getWarp t s.cur.1 s.cur.2 = some w' ∧ TurnFrame s t w ∧ EventsCounted s t w ev ∧ P w'

/-- An instruction retires and counts no event: no slice changes, and no threshold trap comes up. -/
def RetiresQuietly (i : Instr) (s : State) (w : Warp) (P : Warp → Prop) : Prop :=
  ∃ t w', exec i s = .next t ∧ getWarp t s.cur.1 s.cur.2 = some w' ∧ TurnFrame s t w ∧ EventsCounted s t w [] ∧
    t.slices = s.slices ∧ w'.pendThr = w.pendThr ∧ P w'

/-- A warp but for what every retirement moves: its path's PCs, its counts of retired instructions, the load it parked on, the number and the
checks of the instruction at its head, what loads have read early, a step trap that is due, and threshold traps that wait. -/
def Warp.still (w : Warp) : Warp :=
  { w with pcs := [], retired := 0, pathRet := 0, parkedOn := none, dispatch := none, checked := false, bound := [], stepDue := false, pendThr := [] }

/-- A warp but for its v registers. -/
def Warp.sansV (w : Warp) : Warp := { w with v := [], vPoison := [] }

/-- A warp but for its predicates and the poison of its table words. -/
def Warp.sansP (w : Warp) : Warp := { w with p := [], wtPoison := [] }

/-- A warp but for its s registers and the poison of its table words. -/
def Warp.sansS (w : Warp) : Warp := { w with s := [], wtPoison := [] }

/-- The running path's lanes have new PCs, the others keep theirs, and one more instruction is counted (02 R28, 14 R348). -/
def MovedTo (w w' : Warp) (f : Nat → DWord) : Prop :=
  w'.retired = w.retired + 1 ∧ ∀ l, l < 64 → pcOf w' l = if w.path.getLsbD l then f l else pcOf w l

/-- The running path has moved on by a number of bytes. -/
def MovedOn (w w' : Warp) (len : Nat) : Prop := MovedTo w w' (fun _ => pathPc w + BitVec.ofNat 64 len)

/-- A warp but for its path. -/
def Warp.sansPath (w : Warp) : Warp := { w with path := 0 }

/-- A warp but for its blocks and enrolments (02 R28, R31). -/
def Warp.sansJoin (w : Warp) : Warp := { w with blocks := [], j := [] }

/-- A warp but for its trap registers, what says that it runs a handler or has faulted, the number and the checks of the instruction at
its head, and what loads have read early (03 R43, R47, R48; 10 R223-R225, R230). -/
def Warp.sansTrap (w : Warp) : Warp :=
  { w with trapPc := 0, trapCause := 0, trapAddr := 0, trapLanes := 0, tm := false, handlers := 0, faulted := false, concerned := none,
           dispatch := none, checked := false, bound := [], doublePc := 0, pathRet := 0 }

/-- Every lane of the running path can run (02 R28). -/
def PathOk (w : Warp) : Prop := ∀ l, w.path.getLsbD l = true → (selectable w).getLsbD l = true

/-- No wait at a rejoin is complete (14 R329): what holds between instructions, since every completion is acted on at once. -/
def JoinsPending (w : Warp) : Prop := ∀ e, e ∈ waitedJoins w → releases w e.1 e.2 = false

/-- The turn's warp has faulted (10 R220, R221, R230; 03 R46, R47): the record is written with the fault bit, the warp stops where it is with
every register as it was, memory and every other warp of its core are as they were, and the context's stop line is up, with this cause if
none came before. -/
def Faulted (s t : State) (w : Warp) (code sub info : Nat) (converted : Bool) (lanes : LaneMask) (addr : DWord) : Prop :=
  ∃ w', getWarp t s.cur.1 s.cur.2 = some w' ∧
    w'.faulted = true ∧ w'.trapPc = signed57 (pathPc w) ∧ w'.trapCause =
      BitVec.ofNat 64 (code + sub * 2 ^ 16 + info * 2 ^ 32 + converted.toNat * 2 ^ 62 + 2 ^ 63) ∧
    w'.trapLanes = lanes &&& lanesBelow w.grant ∧ w'.trapAddr = addr ∧ w'.sansTrap = w.sansTrap ∧
    (∀ k, k ≠ s.cur.2 → getWarp t s.cur.1 k = getWarp s s.cur.1 k) ∧ (∀ a, mread t.mem a = mread s.mem a) ∧
    ∃ st, (getCtx t w.slice w.ctx).stop = some st ∧ ((getCtx s w.slice w.ctx).stop.isNone = true → st.cause = w'.trapCause)

/-- An instruction faults. -/
def TakesFault (i : Instr) (s : State) (w : Warp) (code sub info : Nat) (converted : Bool) (lanes : LaneMask) (addr : DWord) : Prop :=
  ∃ t, exec i s = .next t ∧ Faulted s t w code sub info converted lanes addr

/-- The turn's warp has trapped into a handler (10 R224; 03 R47): the record is written, traps are masked, the path's lanes go on at the
handler, their PC words without poison (03 R54), and every other register of the warp and every other part of the module are as they were. -/
def Trapped (s t : State) (w : Warp) (code info : Nat) (lanes : LaneMask) (handler : DWord) : Prop :=
  ∃ w', t = putWarp s s.cur.1 s.cur.2 w' ∧
    w'.trapPc = signed57 (pathPc w) ∧ w'.trapCause = BitVec.ofNat 64 (code + info * 2 ^ 32) ∧
    w'.trapLanes = lanes &&& lanesBelow w.grant ∧ w'.trapAddr = 0 ∧ w'.tm = true ∧ w'.handlers = w.path ∧ w'.path = w.path ∧
    (∀ l, l < 64 → pcOf w' l = if w.path.getLsbD l then handler else pcOf w l) ∧
    (∀ k, k ∈ w'.wtPoison ↔ k ∈ w.wtPoison ∧ ¬∃ l, l < 64 ∧ w.path.getLsbD l = true ∧ (k = pcWord l ∨ k = pcWord l + 1)) ∧
    { w'.sansTrap with pcs := [], wtPoison := [] } = { w.sansTrap with pcs := [], wtPoison := [] }

/-- An instruction traps into the warp's handler. -/
def TakesTrap (i : Instr) (s : State) (w : Warp) (code info : Nat) (lanes : LaneMask) : Prop :=
  ∃ t, exec i s = .next t ∧ Trapped s t w code info lanes w.trapBase

/-- A v register written lane by lane (03 R44): results in the active lanes, zero in the guard-false lanes of a zeroing prefix, the old
word in the others; the words written lose their poison (03 R54); the other registers and the rest of the warp stay. -/
def WroteV (w w' : Warp) (d : Nat) (act zeroed : LaneMask) (f : Nat → Word) : Prop :=
  (∀ l, l < 64 → w.present.getLsbD l = true →
    readLane w' d l = if act.getLsbD l then f l else if zeroed.getLsbD l then 0 else readLane w d l) ∧
  tget 0 w'.vPoison d = tget 0 w.vPoison d &&& ~~~(act ||| zeroed) ∧
  (∀ r, r ≠ d → readV w' r = readV w r ∧ tget 0 w'.vPoison r = tget 0 w.vPoison r) ∧
  w'.still.sansV = w.still.sansV

/-- A predicate register written lane by lane (03 R44, 04 R71): p0 discards; the other predicates, the poison of other table words and
the rest of the warp stay. -/
def WroteP (w w' : Warp) (d : Nat) (act zeroed : LaneMask) (f : Nat → Bool) : Prop :=
  (d ≠ 0 → ∀ l, l < 64 → w.present.getLsbD l = true →
    (readP w' d).getLsbD l = if act.getLsbD l then f l else if zeroed.getLsbD l then false else (readP w d).getLsbD l) ∧
  (∀ l, w.present.getLsbD l = false → (readP w' d).getLsbD l = false) ∧
  (∀ r, r ≠ d ∨ r = 0 → readP w' r = readP w r) ∧
  (∀ k, d = 0 ∨ (k ≠ 64 + d ∧ k ≠ 96 + d) → (k ∈ w'.wtPoison ↔ k ∈ w.wtPoison)) ∧
  (d ≠ 0 → 64 + d ∉ w'.wtPoison ∧ 96 + d ∉ w'.wtPoison) ∧
  w'.still.sansP = w.still.sansP

/-- An s register written (04 R71): s0 discards; the other s registers, the poison of other table words and the rest of the warp
stay. -/
def WroteS (w w' : Warp) (d : Nat) (x : DWord) : Prop :=
  (d ≠ 0 → readS w' d = x) ∧ readS w' 0 = 0 ∧ (∀ r, r ≠ d → readS w' r = readS w r) ∧
  (∀ k, d = 0 ∨ (k ≠ d ∧ k ≠ 128 + d) → (k ∈ w'.wtPoison ↔ k ∈ w.wtPoison)) ∧
  (d ≠ 0 → d ∉ w'.wtPoison ∧ 128 + d ∉ w'.wtPoison) ∧
  w'.still.sansS = w.still.sansS

/-- A retirement that writes one v register from a vector instruction with an arithmetic prefix. -/
def GivesV (i : Instr) (s : State) (w : Warp) (q : Option APre) (d : BitVec 7) (f : Nat → Word) : Prop :=
  RetiresQuietly i s w (fun w' => MovedOn w w' (lenOf q) ∧ WroteV w w' d.toNat (activeA w q) (zeroedA w q) f)

/-- A retirement that writes one v register and counts the events of its active lanes in ascending order. -/
def GivesVCounting (i : Instr) (s : State) (w : Warp) (q : Option APre) (d : BitVec 7) (f : Nat → Nat × Events) : Prop :=
  Retires i s w ((lanesOf (activeA w q)).flatMap (fun l => (f l).2))
    (fun w' => MovedOn w w' (lenOf q) ∧
      WroteV w w' d.toNat (activeA w q) (zeroedA w q) (fun l => BitVec.ofNat 32 (f l).1))

/-- A retirement that writes one predicate. -/
def GivesP (i : Instr) (s : State) (w : Warp) (q : Option APre) (d : BitVec 5) (f : Nat → Bool) : Prop :=
  RetiresQuietly i s w (fun w' => MovedOn w w' (lenOf q) ∧ WroteP w w' d.toNat (activeA w q) (zeroedA w q) f)

/-- A retirement that writes one s register. -/
def GivesS (i : Instr) (s : State) (w : Warp) (d : BitVec 6) (x : DWord) : Prop :=
  RetiresQuietly i s w (fun w' => MovedOn w w' 4 ∧ WroteS w w' d.toNat x)

/-- The register words that an instruction reads can be read (03 R44, R54, R55): its registers lie in the allotment, no guard or
predicate or s register that it reads is poisoned, and no active lane reads a poisoned word, nor a lane that keeps its old value. -/
def Readable (w : Warp) (act zeroed : LaneMask) (regs dst srcV srcS srcP : List Nat) : Prop :=
  (∀ r, r ∈ regs → r < w.areg) ∧ poisonedTable w srcS srcP = false ∧ poisonedLanes w act zeroed srcV dst = 0

/-- A vector instruction with an arithmetic prefix writes d from v registers. -/
def VectorReady (w : Warp) (q : Option APre) (d : Nat) (srcs : List Nat) : Prop :=
  Readable w (activeA w q) (zeroedA w q) (d :: srcs) [d] srcs [] (guardRegA q)

/-- A vector instruction that rounds as NMODE says reads that register too, which is poisoned nowhere (03 R54; 05 R103). -/
def FloatReady (w : Warp) (q : Option APre) (d : Nat) (srcs : List Nat) : Prop :=
  Readable w (activeA w q) (zeroedA w q) (d :: srcs) [d] srcs [nmodeWord] (guardRegA q)

/-- Whether a condition code holds of two integers (15 R382): eq, ne, lt, le, gt, ge, then unord, which is false of integers, and
ord. -/
def holdsOf (k : Nat) (x y : Int) : Bool :=
  match k with
  | 0 => decide (x = y)
  | 1 => decide (x ≠ y)
  | 2 => decide (x < y)
  | 3 => decide (x ≤ y)
  | 4 => decide (y < x)
  | 5 => decide (y ≤ x)
  | 6 => false
  | _ => true

/-- An FP32 pattern is a NaN (05 R92). -/
def isNan32 (x : Word) : Bool := decide (0x7F800000 < x.toNat % 2 ^ 31)

/-- The value of an FP32 pattern that is no NaN in units of 2^-149, an infinity being beyond every finite value (05 R92). -/
def orderOf32 (x : Word) : Int :=
  let e := x.toNat / 2 ^ 23 % 2 ^ 8
  let f := x.toNat % 2 ^ 23
  let m : Nat := if e = 0 then f else (2 ^ 23 + f) * 2 ^ (e - 1)
  if x.msb then -(m : Int) else m

/-- FP32 patterns in the order of VFMIN and VFMAX, which puts −0 below +0 (15 R388). -/
def below32 (x y : Word) : Bool := decide (orderOf32 x < orderOf32 y) || (decide (orderOf32 x = orderOf32 y) && x.msb && !y.msb)

/-- A word of elements of n bits, each with its own result and events (05 R109). -/
def packElements (n : Nat) (f : Nat → Nat × Events) : Nat × Events :=
  (((List.range (32 / n)).map (fun k => (f k).1 * 2 ^ (n * k))).sum, (List.range (32 / n)).flatMap (fun k => (f k).2))

/-- A cross-lane instruction over segments of S lanes can run (02 R34; 03 R44, R54, R55): the grant is no smaller. -/
def CrossReady (w : Warp) (q : Option APre) (S : Nat) (regs dst srcV srcP : List Nat) : Prop :=
  0 < S ∧ S ≤ w.grant ∧ Readable w (activeA w q) (zeroedA w q) regs dst srcV [] (guardRegA q ++ srcP)

/-- A byte as a core's own load for a slice sees it (03 R48): the core's newest retired store of it, else its clean copy or the home. -/
def seenByte (s : State) (core sl k : Nat) : Byte :=
  match newestByte (getCore s core) k with
  | some x => x.1
  | none => (lineFor s core sl (lineOf k)).bytes.getD (k % 128) 0

/-- A table's numbers rise, as every update of one leaves them. -/
def Rising {α : Type} (t : Tbl α) : Prop := (t.map (fun e => e.1)).Pairwise (· < ·)

/-- A byte at its home is as it was; or, where a copy of a line behind a port has left a slice's ways to make room, as the port has it (07
R149, R150). -/
def HomeKept (s t : State) (sl k : Nat) : Prop := homeByte t sl k = homeByte s sl k ∨ homeByte t sl k = freshByte s sl k

/-- A byte as a core's own load sees it is as it was; or, where a copy has left the L1 or the ways to make room, as its home or its port has
it (07 R149, R150). -/
def SeenKept (s t : State) (core sl k : Nat) : Prop :=
  seenByte t core sl k = seenByte s core sl k ∨
    (newestByte (getCore s core) k = none ∧ (seenByte t core sl k = homeByte s sl k ∨ seenByte t core sl k = freshByte s sl k))

/-- The place of the dirty bit that an access through a leaf of stage 2 sets, where the leaf has it clear (07 R173). -/
def dirtyPlace (l : Leaf) (acc : Acc) : List Nat := if acc.writes && !l.d then [l.entryPa] else []

/-- The little-endian number of some bytes as a core sees them (00 R2). -/
def seenNat (s : State) (core sl k n : Nat) : Nat := bytesNat ((List.range n).map (fun i => seenByte s core sl (k + i)))

/-- Every other warp of the module is as it was, but for a scope mismatch that an acquire marks on it (08 R187). -/
def OthersKeep (s t : State) : Prop :=
  ∀ n k x, (n, k) ≠ s.cur → getWarp s n k = some x → ∃ x', getWarp t n k = some x' ∧ { x' with scopemis := x.scopemis } = x

/-- n registers from d up written in the active lanes, register d + i with the word f i of each lane (03 R44); every other word, and the
rest of the warp but for what loads keep for later acquires, stay. -/
def WroteGroup (w w' : Warp) (d n : Nat) (act : LaneMask) (f : Nat → Nat → Word) : Prop :=
  (∀ r l, l < 64 → w.present.getLsbD l = true →
    readLane w' r l = if d ≤ r ∧ r < d + n ∧ act.getLsbD l = true then f (r - d) l else readLane w r l) ∧
  (∀ r, tget 0 w'.vPoison r = if d ≤ r ∧ r < d + n then tget 0 w.vPoison r &&& ~~~act else tget 0 w.vPoison r) ∧
  { w'.still.sansV with seen := w.seen, scopemis := w.scopemis } = w.still.sansV

/-- The bytes of each store of a core lie in the store's line, each listed once (03 R49). -/
def StoresInLine (c : Core) : Prop :=
  ∀ e, e ∈ c.pend → (∀ b, b ∈ e.bytes → lineOf b.1 = e.line) ∧ (e.bytes.map (fun b => b.1)).Nodup

/-- What a slice's ways hold is as the module's own accesses leave it (07 R148, R150): of a line of the slice's own stacks and of the code
world no bytes for a port; a copy is whole and its bytes are the line's. -/
def WaysOk (s : State) (sl : Nat) : Prop :=
  Rising s.l2 ∧ ∀ k x, l2Find s sl (lineOf k) = some x →
    (x.clean = [] ∨ x.clean.length = 128) ∧ (∀ b, b ∈ x.dirty → lineOf b.1 = lineOf k) ∧ (x.dirty.map (fun b => b.1)).Nodup ∧
    (ownStack s sl (lineOf k) = true → x.clean = [] ∧ x.dirty = []) ∧
    (isCode s (lineOf k) = true → x.dirty = [])

/-- A core's retired stores, and what its slice's ways hold for the ports, can all reach where they go (03 R49, R50; 07 R150; 08 R178): they
are the slice's, their ports answer, and none is for the code world, which no slice may write (07 R151). -/
def StoresCanLand (s : State) (core sl : Nat) : Prop :=
  sl < 128 ∧ StoresInLine (getCore s core) ∧ WaysOk s sl ∧
  (∀ e, e ∈ (getCore s core).pend → e.origin.slice = sl ∧ lineOf e.line = e.line ∧ isCode s e.line = false ∧ reach s sl e.line = .ok) ∧
  (∀ k x, l2Find s sl (lineOf k) = some x → x.dirty ≠ [] → reach s sl (lineOf k) = .ok)

/-- A byte once a core's retired stores have reached where they go: its newest store of the byte, else what was there (08 R178). -/
def landedByte (s : State) (core k : Nat) (old : Byte) : Byte :=
  match newestByte (getCore s core) k with
  | some x => x.1
  | none => old

/-- A byte at its port once what a slice's ways hold for it is there (07 R150). -/
def waitingByte (s : State) (sl k : Nat) : Byte :=
  match (l2Find s sl (lineOf k)).bind (fun x => tfind x.dirty k) with
  | some b => b
  | none => mread s.mem k

/-- An instruction issues one asynchronous operation for some lanes at its retirement (07 R157, R158, R164; 08 R175; 10 R235): it enters the
engine's work with what it captured, the warp counts it, and no register, memory byte or slice changes, but that a stop line in progress
takes the engine in (10 R231). -/
def Issues (i : Instr) (s : State) (w : Warp) (cls : Nat) (kind : OpKind) (lanes : LaneMask) (tag : Option Nat) (len : Nat) : Prop :=
  ∃ t w' o, exec i s = .next t ∧ getWarp t s.cur.1 s.cur.2 = some w' ∧ MovedOn w w' len ∧
    w'.counts = setAt w.counts cls (w.counts.getD cls 0 + 1) ∧
    w'.issues = setAt w.issues cls ((w.issues.getD cls 0 + 1) % 2 ^ 32) ∧
    { w'.still with counts := w.counts, issues := w.issues, dPend := w.dPend } = w.still ∧
    t.nextOp = s.nextOp + 1 ∧ tfind t.ops s.nextOp = some o ∧ (∀ k, k ≠ s.nextOp → tfind t.ops k = tfind s.ops k) ∧
    o.cls = cls ∧ o.kind = kind ∧ o.tag = tag ∧ o.slice = w.slice ∧ o.ctx = w.ctx ∧ o.core = s.cur.1 ∧ o.bank = w.bank ∧
    o.team = w.team ∧ o.warps = [(s.cur.2, slotGen s s.cur.1 s.cur.2)] ∧ o.threads = [(s.cur.2, lanes)] ∧
    (o.suspended = true ↔ cls = 1 ∧ (getCtx s w.slice w.ctx).state = 4) ∧ o.issue = w.issues.getD cls 0 ∧ o.nmode = w.nmode ∧
    o.fence = (getCore s s.cur.1).fences + 1 ∧ (getCore t s.cur.1).fences = (getCore s s.cur.1).fences + 1 ∧ o.accept = s.nextOp ∧ o.progress = 0 ∧ o.finished = false ∧ o.err = none ∧ o.permit = .none ∧
    t.mem = s.mem ∧ (∀ n, n ≠ w.slice → getSlice t n = getSlice s n) ∧
    ((getCtx s w.slice w.ctx).stop = none ∨ cls = 2 → t.slices = s.slices)

/-- A stall (02 R29): nothing changes. -/
def Stalls (i : Instr) (s : State) : Prop := exec i s = .next s

/-- Everything of the module is as it was but for one warp and the order in which its bank's warps wait. -/
structure WarpFrame (s t : State) (core slot : Nat) : Prop where
  rest : { t with cores := s.cores } = s
  cores : ∀ n, n ≠ core → getCore t n = getCore s n
  own : { getCore t core with warps := (getCore s core).warps, bank0 := (getCore s core).bank0, bank1 := (getCore s core).bank1 } =
    getCore s core
  banks : ∀ b, { (getCore t core).bank b with waitSeq := ((getCore s core).bank b).waitSeq } = (getCore s core).bank b
  warps : ∀ k, k ≠ slot → getWarp t core k = getWarp s core k

/-- A VF's event bit is set (11 R256). -/
def EventSeen (t : State) (sl bit : Nat) : Prop := (getSlice t sl).evstat.getLsbD bit = true

/-- An operation has finished (07 R166; 06 R140): it keeps its outcome, its permit is back, and its completion tag is set. -/
def Finishes (t : State) (id : Nat) (o : AsyncOp) (e : Option OpErr) : Prop :=
  findOp t id = some { o with finished := true, err := e, permit := .none } ∧
  ∀ n, o.tag = some n → n < 64 → ((getCore t o.core).bank o.bank).tagRdy.getLsbD n = true

/-- The words of a vector instruction with its arithmetic prefix (04 R74): the guard in [23:19], its negation in [18], zeroing in [17],
the rounding and saturation overrides in [16:14] and [13:12], and the fourth operand in [11:5]. -/
def guardedWords (q : Option APre) (word : Nat) : List Nat :=
  match q with
  | none => [word]
  | some p => [0x3F * 2 ^ 25 + p.guard.toNat * 2 ^ 19 + p.neg.toNat * 2 ^ 18 + p.zero.toNat * 2 ^ 17 + p.rnd.toNat * 2 ^ 14 +
      p.sat.toNat * 2 ^ 12 + p.vc.toNat * 2 ^ 5, word]

/-- A prefix of guard, negation, zeroing and fourth operand alone (04 R76). -/
def usesGuardAndFourth (q : Option APre) : Prop := ∀ p, q = some p → p.rnd = 0 ∧ p.sat = 0

/-- A prefix of guard, negation and zeroing alone (04 R76). -/
def usesGuard (q : Option APre) : Prop := ∀ p, q = some p → p.rnd = 0 ∧ p.sat = 0 ∧ p.vc = 0

/-- A word, after its prefix, is the encoding of an instruction. -/
def Reads (q : Option APre) (word : Nat) (i : Instr) : Prop := decodeWords (guardedWords q word) = .ok i

/-- A word is an illegal instruction with SUB 0 (04 R68; 10 R222), without a prefix or after a prefix of guard, negation and zeroing. -/
def ReadsIllegal (q : Option APre) (word : Nat) : Prop := ∃ e, decodeWords (guardedWords q word) = .error e ∧ e.sub = 0

/-- The memory of the module in its canonical form. -/
def MemoryOk (s : State) : Prop := Memory.wf s.mem = true

/-- Every TLB entry maps a page of a multiple of 64 KiB to an address aligned to 64 KiB (07 R169). -/
def TlbOk (s : State) : Prop := ∀ e, e ∈ s.tlb → e.size % 2 ^ 16 = 0 ∧ e.out % 2 ^ 16 = 0

end Sys2Proof.Machine
end

