-- ==== Sys2Proof/Certificates/Slice0/Obligations.lean ====
section
/-!
DEFINITION. The statements about the model: what each claims is in its docstring, and in OBLIGATIONS.json.
-/
open Sys2Proof Sys2Proof.Machine

/-- The encodings of the integer instructions of majors 0x01 and 0x03 (15 R372, R375, R381; 16 R400, R401), with the prefix fields that each
accepts. -/
def Claims.VectorIntegerWords : Prop :=
  ∀ (q : Option APre) (d a b : BitVec 7) (i : BitVec 11),
    let vr := fun (y fn : Nat) => 0x01 * 2 ^ 25 + d.toNat * 2 ^ 18 + a.toNat * 2 ^ 11 + y * 2 ^ 4 + fn
    (usesGuard q →
      Reads q (vr b.toNat 0) (.vadd q d a b) ∧ Reads q (vr b.toNat 1) (.vsub q d a b) ∧ Reads q (vr b.toNat 2) (.vmul q d a b) ∧
      Reads q (vr b.toNat 3) (.vmulhI q d a b) ∧ Reads q (vr b.toNat 4) (.vmulhN q d a b) ∧
      Reads q (vr b.toNat 6) (.vminI q d a b) ∧ Reads q (vr b.toNat 7) (.vminN q d a b) ∧
      Reads q (vr b.toNat 8) (.vmaxI q d a b) ∧ Reads q (vr b.toNat 9) (.vmaxN q d a b) ∧
      Reads q (vr 0 10) (.vabs q d a) ∧ Reads q (vr 0 11) (.vclz q d a) ∧ Reads q (vr 0 12) (.vpopc q d a) ∧
      Reads q (0x03 * 2 ^ 25 + d.toNat * 2 ^ 18 + a.toNat * 2 ^ 11 + i.toNat) (.vaddi q d a i)) ∧
    (usesGuardAndFourth q → Reads q (vr b.toNat 5) (.vmad q d a b))

/-- The integer instructions of majors 0x01 and 0x03 (15 R371, R372, R375, R381; 16 R400, R401), each lane's result given over the
integers. The fourth operand of VMAD is vd without a prefix and vc with one (04 R77). -/
def Claims.VectorIntegerResults : Prop :=
  ∀ (s : State) (w : Warp) (q : Option APre) (d a b : BitVec 7) (i : BitVec 11), OnTurn s w →
    let x := readLane w a.toNat
    let y := readLane w b.toNat
    (VectorReady w q d.toNat [a.toNat, b.toNat] →
      GivesV (.vadd q d a b) s w q d (fun l => BitVec.ofNat 32 ((x l).toNat + (y l).toNat)) ∧
      GivesV (.vsub q d a b) s w q d (fun l => BitVec.ofInt 32 ((x l).toNat - (y l).toNat : Int)) ∧
      GivesV (.vmul q d a b) s w q d (fun l => BitVec.ofNat 32 ((x l).toNat * (y l).toNat)) ∧
      GivesV (.vmulhI q d a b) s w q d (fun l => BitVec.ofInt 32 ((x l).toInt * (y l).toInt / 2 ^ 32)) ∧
      GivesV (.vmulhN q d a b) s w q d (fun l => BitVec.ofNat 32 ((x l).toNat * (y l).toNat / 2 ^ 32)) ∧
      GivesV (.vminI q d a b) s w q d (fun l => BitVec.ofInt 32 (min (x l).toInt (y l).toInt)) ∧
      GivesV (.vminN q d a b) s w q d (fun l => BitVec.ofNat 32 (min (x l).toNat (y l).toNat)) ∧
      GivesV (.vmaxI q d a b) s w q d (fun l => BitVec.ofInt 32 (max (x l).toInt (y l).toInt)) ∧
      GivesV (.vmaxN q d a b) s w q d (fun l => BitVec.ofNat 32 (max (x l).toNat (y l).toNat))) ∧
    (VectorReady w q d.toNat [a.toNat, b.toNat, fourth q d.toNat] →
      GivesV (.vmad q d a b) s w q d
        (fun l => BitVec.ofNat 32 ((x l).toNat * (y l).toNat + (readLane w (fourth q d.toNat) l).toNat))) ∧
    (VectorReady w q d.toNat [a.toNat] →
      GivesV (.vabs q d a) s w q d (fun l => BitVec.ofNat 32 (x l).toInt.natAbs) ∧
      GivesV (.vclz q d a) s w q d
        (fun l => BitVec.ofNat 32 ((List.range 32).reverse.takeWhile (fun k => !(x l).getLsbD k)).length) ∧
      GivesV (.vpopc q d a) s w q d (fun l => BitVec.ofNat 32 ((List.range 32).countP (x l).getLsbD)) ∧
      GivesV (.vaddi q d a i) s w q d (fun l => BitVec.ofInt 32 ((x l).toInt + i.toInt)))

/-- The encodings of the bitwise, shift and bit-field instructions, VMOVI and VSEL (15 R376, R379, R380; 16 R403, R410, R412), with the prefix
fields that each accepts. -/
def Claims.VectorLogicWords : Prop :=
  ∀ (q : Option APre) (d a b : BitVec 7) (i : BitVec 11) (j : BitVec 18) (n : BitVec 5) (p : BitVec 4),
    let word := fun (maj rest : Nat) => maj * 2 ^ 25 + d.toNat * 2 ^ 18 + a.toNat * 2 ^ 11 + rest
    let vr := fun (maj fn : Nat) => word maj (b.toNat * 2 ^ 4 + fn)
    (usesGuard q →
      Reads q (vr 0x02 0) (.vand q d a b) ∧ Reads q (vr 0x02 1) (.vor q d a b) ∧ Reads q (vr 0x02 2) (.vxor q d a b) ∧
      Reads q (vr 0x02 3) (.vshl q d a b) ∧ Reads q (vr 0x02 4) (.vshr q d a b) ∧ Reads q (vr 0x02 5) (.vsar q d a b) ∧
      Reads q (vr 0x02 6) (.vbfeI q d a b) ∧ Reads q (vr 0x02 7) (.vbfeN q d a b) ∧
      Reads q (word 0x04 i.toNat) (.vandi q d a i) ∧ Reads q (word 0x05 i.toNat) (.vori q d a i) ∧
      Reads q (word 0x06 i.toNat) (.vxori q d a i) ∧
      Reads q (word 0x07 n.toNat) (.vshlImm q d a n) ∧ Reads q (word 0x07 (1 * 2 ^ 9 + n.toNat)) (.vshrImm q d a n) ∧
      Reads q (word 0x07 (2 * 2 ^ 9 + n.toNat)) (.vsarImm q d a n) ∧
      (3 * 2 ^ 9 ≤ i.toNat ∨ i.toNat / 2 ^ 5 % 2 ^ 4 ≠ 0 → ReadsIllegal q (word 0x07 i.toNat)) ∧
      Reads q (0x08 * 2 ^ 25 + d.toNat * 2 ^ 18 + j.toNat) (.vmovi q d j) ∧ Reads q (vr 0x0E p.toNat) (.vsel q d a b p)) ∧
    (usesGuardAndFourth q → Reads q (vr 0x02 8) (.vbfi q d a b))

/-- The bitwise, shift and bit-field instructions of majors 0x02 and 0x04 to 0x07 (15 R371, R376, R380; 16 R410). A register shift takes
the whole of v[vb] as its amount, so an amount of 32 or more shifts every bit out. -/
def Claims.VectorLogicResults : Prop :=
  ∀ (s : State) (w : Warp) (q : Option APre) (d a b : BitVec 7) (i : BitVec 11) (n : BitVec 5), OnTurn s w →
    let x := readLane w a.toNat
    let y := readLane w b.toNat
    let pos := fun l => (y l).toNat % 32
    let len := fun l => min ((y l).toNat / 2 ^ 8 % 64) (32 - pos l)
    (VectorReady w q d.toNat [a.toNat, b.toNat] →
      GivesV (.vand q d a b) s w q d (fun l => x l &&& y l) ∧
      GivesV (.vor q d a b) s w q d (fun l => x l ||| y l) ∧
      GivesV (.vxor q d a b) s w q d (fun l => x l ^^^ y l) ∧
      GivesV (.vshl q d a b) s w q d (fun l => BitVec.ofNat 32 ((x l).toNat * 2 ^ (y l).toNat)) ∧
      GivesV (.vshr q d a b) s w q d (fun l => BitVec.ofNat 32 ((x l).toNat / 2 ^ (y l).toNat)) ∧
      GivesV (.vsar q d a b) s w q d (fun l => BitVec.ofInt 32 ((x l).toInt / 2 ^ (y l).toNat)) ∧
      GivesV (.vbfeI q d a b) s w q d
        (fun l => BitVec.ofInt 32 (Int.bmod ((x l).toNat / 2 ^ pos l % 2 ^ len l : Nat) (2 ^ len l))) ∧
      GivesV (.vbfeN q d a b) s w q d (fun l => BitVec.ofNat 32 ((x l).toNat / 2 ^ pos l % 2 ^ len l))) ∧
    (VectorReady w q d.toNat [a.toNat, b.toNat, fourth q d.toNat] →
      let c := readLane w (fourth q d.toNat)
      GivesV (.vbfi q d a b) s w q d
        (fun l => BitVec.ofNat 32 ((c l).toNat - (c l).toNat / 2 ^ pos l % 2 ^ len l * 2 ^ pos l + (x l).toNat % 2 ^ len l * 2 ^ pos l))) ∧
    (VectorReady w q d.toNat [a.toNat] →
      GivesV (.vandi q d a i) s w q d (fun l => x l &&& BitVec.ofInt 32 i.toInt) ∧
      GivesV (.vori q d a i) s w q d (fun l => x l ||| BitVec.ofInt 32 i.toInt) ∧
      GivesV (.vxori q d a i) s w q d (fun l => x l ^^^ BitVec.ofInt 32 i.toInt) ∧
      GivesV (.vshlImm q d a n) s w q d (fun l => BitVec.ofNat 32 ((x l).toNat * 2 ^ n.toNat)) ∧
      GivesV (.vshrImm q d a n) s w q d (fun l => BitVec.ofNat 32 ((x l).toNat / 2 ^ n.toNat)) ∧
      GivesV (.vsarImm q d a n) s w q d (fun l => BitVec.ofInt 32 ((x l).toInt / 2 ^ n.toNat)))

/-- Selection and moves (16 R402, R403, R412; 02 R19): VMOV.lo and VMOV.hi read one half of the s register's poison (03 R54), named by
192 + r and 128 + r. -/
def Claims.VectorMoveResults : Prop :=
  ∀ (s : State) (w : Warp) (q : Option APre) (d a b : BitVec 7) (p : BitVec 4) (r : BitVec 6) (i : BitVec 18), OnTurn s w →
    let act := activeA w q
    let zeroed := zeroedA w q
    (Readable w act zeroed [d.toNat, a.toNat, b.toNat] [d.toNat] [a.toNat, b.toNat] [] (guardRegA q ++ [p.toNat]) →
      GivesV (.vsel q d a b p) s w q d
        (fun l => if (readP w p.toNat).getLsbD l then readLane w a.toNat l else readLane w b.toNat l)) ∧
    (VectorReady w q d.toNat [a.toNat] → GivesV (.vmov q d a) s w q d (readLane w a.toNat)) ∧
    (Readable w act zeroed [d.toNat] [d.toNat] [] [192 + r.toNat] (guardRegA q) →
      GivesV (.vmovLo q d r) s w q d (fun _ => BitVec.ofNat 32 (readS w r.toNat).toNat)) ∧
    (Readable w act zeroed [d.toNat] [d.toNat] [] [128 + r.toNat] (guardRegA q) →
      GivesV (.vmovHi q d r) s w q d (fun _ => BitVec.ofNat 32 ((readS w r.toNat).toNat / 2 ^ 32))) ∧
    (VectorReady w q d.toNat [] →
      GivesV (.vmovLane q d) s w q d (fun l => BitVec.ofNat 32 l) ∧
      GivesV (.vmovTid q d) s w q d (fun l => BitVec.ofNat 32 (w.warpix * w.grant + l)) ∧
      GivesV (.vmovi q d i) s w q d (fun _ => BitVec.ofInt 32 i.toInt))

/-- The encodings of VCMP, PLOG and ELECT (13 R321; 14 R340; 15 R382): type 3, conditions 8 to 15, and .unord and .ord of integers are
illegal instructions with SUB 0. -/
def Claims.PredicateWords : Prop :=
  ∀ (q : Option APre) (d : BitVec 5) (a b : BitVec 7) (pa pb : BitVec 5) (t k : BitVec 4) (y : BitVec 2), usesGuard q →
    let vp := 0x10 * 2 ^ 25 + d.toNat * 2 ^ 20
    let vcmp := 0x0D * 2 ^ 25 + y.toNat * 2 ^ 23 + d.toNat * 2 ^ 18 + a.toNat * 2 ^ 11 + b.toNat * 2 ^ 4 + k.toNat
    let legal := y ≠ 3 ∧ k.toNat < 8 ∧ (y = 2 ∨ k.toNat < 6)
    (legal → Reads q vcmp (.vcmp q y d a b k)) ∧ (¬legal → ReadsIllegal q vcmp) ∧
    Reads q (vp + pa.toNat * 2 ^ 15 + pb.toNat * 2 ^ 10 + t.toNat) (.plog q d pa pb t) ∧
    Reads q (vp + 2 ^ 4) (.elect q d)

/-- Comparisons and predicate logic (13 R321; 14 R340; 15 R382, R383). FP32 operands compare by value, so that a zero of either sign
equals the other; a NaN makes ne and unord alone true. ELECT of an empty active set elects no lane: the lanes that its guard removes keep pd,
or receive false under .z (04 R71, R77; log 113). -/
def Claims.PredicateResults : Prop :=
  ∀ (s : State) (w : Warp) (q : Option APre) (d : BitVec 5) (a b : BitVec 7) (pa pb : BitVec 5) (t : BitVec 4) (k : BitVec 4),
    OnTurn s w →
    let act := activeA w q
    let kept := guardRegA q ++ keptPredicate w act (zeroedA w q) d.toNat
    let x := readLane w a.toNat
    let y := readLane w b.toNat
    (Readable w act 0 [a.toNat, b.toNat] [] [a.toNat, b.toNat] [] (kept ++ []) → k.toNat < 8 →
      (k.toNat < 6 → GivesP (.vcmp q 0 d a b k) s w q d (fun l => holdsOf k.toNat (x l).toInt (y l).toInt) ∧
        GivesP (.vcmp q 1 d a b k) s w q d (fun l => holdsOf k.toNat (x l).toNat (y l).toNat)) ∧
      GivesP (.vcmp q 2 d a b k) s w q d (fun l =>
        if isNan32 (x l) || isNan32 (y l) then k == 1 || k == 6 else holdsOf k.toNat (orderOf32 (x l)) (orderOf32 (y l)))) ∧
    (Readable w act 0 [] [] [] [] (kept ++ [pa.toNat, pb.toNat]) →
      GivesP (.plog q d pa pb t) s w q d
        (fun l => t.getLsbD (2 * ((readP w pa.toNat).getLsbD l).toNat + ((readP w pb.toNat).getLsbD l).toNat))) ∧
    (Readable w act 0 [] [] [] [] kept →
      GivesP (.elect q d) s w q d (fun l => (List.range l).all (fun j => !act.getLsbD j)))

/-- The FP32 instructions (15 R371, R387, R388): the exact result of finite operands is rounded once into FP32 under the effective
rounding code and saturation (05 R102, R103); their events are counted lane by lane. -/
def Obligations.VectorFloatResults : Prop :=
  ∀ (s : State) (w : Warp) (q : Option APre) (d a b : BitVec 7), OnTurn s w →
    let x := fun l => (readLane w a.toNat l).toNat
    let y := fun l => (readLane w b.toNat l).toNat
    let rm := effRm w.nmode q .f32
    let sb := effSat w.nmode q .f32
    (FloatReady w q d.toNat [a.toNat, b.toNat] →
      GivesVCounting (.vfadd q d a b) s w q d (fun l => opAdd .f32 rm sb (x l) (y l)) ∧
      GivesVCounting (.vfsub q d a b) s w q d (fun l => opSub .f32 rm sb (x l) (y l)) ∧
      GivesVCounting (.vfmul q d a b) s w q d (fun l => opMul .f32 rm sb (x l) (y l))) ∧
    (VectorReady w q d.toNat [a.toNat, b.toNat] →
      GivesV (.vfmin q d a b) s w q d (fun l =>
        if isNan32 (readLane w a.toNat l) && isNan32 (readLane w b.toNat l) then 0x7FC00000
        else if isNan32 (readLane w a.toNat l) then readLane w b.toNat l
        else if isNan32 (readLane w b.toNat l) then readLane w a.toNat l
        else if below32 (readLane w b.toNat l) (readLane w a.toNat l) then readLane w b.toNat l else readLane w a.toNat l) ∧
      GivesV (.vfmax q d a b) s w q d (fun l =>
        if isNan32 (readLane w a.toNat l) && isNan32 (readLane w b.toNat l) then 0x7FC00000
        else if isNan32 (readLane w a.toNat l) then readLane w b.toNat l
        else if isNan32 (readLane w b.toNat l) then readLane w a.toNat l
        else if below32 (readLane w a.toNat l) (readLane w b.toNat l) then readLane w b.toNat l else readLane w a.toNat l)) ∧
    (FloatReady w q d.toNat [a.toNat, b.toNat, fourth q d.toNat] →
      GivesVCounting (.vffma q d a b) s w q d
        (fun l => opFma .f32 rm sb (x l) (y l) (readLane w (fourth q d.toNat) l).toNat))

/-- The special functions and the activation table (15 R373, R386; 16 R397, R398): VACT reads the bank that is current when it
executes (09 R217). -/
def Obligations.SpecialFunctionResults : Prop :=
  ∀ (s : State) (w : Warp) (q : Option APre) (d a : BitVec 7), OnTurn s w → FloatReady w q d.toNat [a.toNat] →
    let x := fun l => (readLane w a.toNat l).toNat
    let rm := effRm w.nmode q .f32
    let sb := effSat w.nmode q .f32
    let bank := (getCore s s.cur.1).bank w.bank
    let entry := fun l => (tget 0 (if bank.actCur then bank.act1 else bank.act0) (actIndex (valueOf .f32 (x l)))).toNat
    GivesVCounting (.vrcp q d a) s w q d (fun l => opRcp rm sb (x l)) ∧
    GivesVCounting (.vrsq q d a) s w q d (fun l => opRsq rm sb (x l)) ∧
    GivesVCounting (.vsqrt q d a) s w q d (fun l => opSqrt rm sb (x l)) ∧
    GivesVCounting (.vexp2 q d a) s w q d (fun l => opExp2 rm sb (x l)) ∧
    GivesVCounting (.vlog2 q d a) s w q d (fun l => opLog2 rm sb (x l)) ∧
    GivesVCounting (.vsinp q d a) s w q d (fun l => opSinp rm sb (x l)) ∧
    GivesVCounting (.vact q d a) s w q d (fun l => opAct rm sb (entry l) (x l))

/-- Packed arithmetic (16 R406, R407; 05 R109): each element of a packed word is an operation of its own. -/
def Obligations.PackedResults : Prop :=
  ∀ (s : State) (w : Warp) (q : Option APre) (d a b : BitVec 7) (t : BitVec 2), OnTurn s w →
    let f := packedFmt t
    let n := f.width
    let x := fun l k => slotOf n (readLane w a.toNat l).toNat k
    let y := fun l k => slotOf n (readLane w b.toNat l).toNat k
    let z := fun l k => slotOf n (readLane w (fourth q d.toNat) l).toNat k
    let rm := effRm w.nmode q f
    let sb := effSat w.nmode q f
    (FloatReady w q d.toNat [a.toNat, b.toNat] →
      GivesVCounting (.vpkadd q d a b t) s w q d (fun l => packElements n (fun k => opAdd f rm sb (x l k) (y l k))) ∧
      GivesVCounting (.vpkmul q d a b t) s w q d (fun l => packElements n (fun k => opMul f rm sb (x l k) (y l k)))) ∧
    (FloatReady w q d.toNat [a.toNat, b.toNat, fourth q d.toNat] →
      GivesVCounting (.vpkfma q d a b t) s w q d (fun l => packElements n (fun k => opFma f rm sb (x l k) (y l k) (z l k))))

/-- Conversions (15 R385; 05 R107, R108): the source field's value is delivered into the destination format; without the insert field a
narrow result fills its register with sign bits for I8 and I16 and with zeros otherwise. -/
def Obligations.ConversionResults : Prop :=
  ∀ (s : State) (w : Warp) (q : Option APre) (d a : BitVec 7) (c : BitVec 3) (t : BitVec 4) (x i : BitVec 1) (k : BitVec 2)
    (src dst : Fmt), OnTurn s w → wellFormed (.vcvt q d a c t x i k) = true → Fmt.ofCode c.toNat = some src →
    Fmt.ofCode t.toNat = some dst → FloatReady w q d.toNat (if i = 1 then [a.toNat, d.toNat] else [a.toNat]) →
    let n := dst.width
    let from_ := fun l => (readLane w a.toNat l).toNat / (if x = 1 then 2 ^ (src.width * k.toNat) else 1) % 2 ^ src.width
    let y := fun l => deliver dst (effRm w.nmode q dst) (effSat w.nmode q dst) (valueOf src (from_ l))
    let old := fun l => (readLane w d.toNat l).toNat
    let at_ := n * k.toNat
    GivesVCounting (.vcvt q d a c t x i k) s w q d (fun l =>
      (if i = 1 then old l - old l / 2 ^ at_ % 2 ^ n * 2 ^ at_ + (y l).1 * 2 ^ at_
       else if dst = .i8 ∨ dst = .i16 then (BitVec.ofInt 32 (Int.bmod (y l).1 (2 ^ n))).toNat else (y l).1, (y l).2))

/-- Shuffles, broadcasts and votes (13 R311; 14 R344; 16 R405; 02 R35): a lane that names a source which is not active keeps its own
value. A ballot over 64 lanes fills a pair. -/
def Obligations.LaneExchangeResults : Prop :=
  ∀ (s : State) (w : Warp) (q : Option APre) (d a b i : BitVec 7) (p : BitVec 5) (g m : BitVec 2), OnTurn s w →
    let act := activeA w q
    let S := segWidth w (getTeam s s.cur.1 w.team) g.toNat
    let x := readLane w a.toNat
    let k := fun l => (readLane w b.toNat l).toNat
    let base := fun l => l / S * S
    let given := fun (l j : Nat) => if act.getLsbD j then x j else x l
    let yes := fun l => act.getLsbD l && (readP w p.toNat).getLsbD l
    let inSeg := fun (l j : Nat) => decide (base l ≤ j ∧ j < base l + S)
    (CrossReady w q S [d.toNat, a.toNat, b.toNat] [d.toNat] [a.toNat, b.toNat] [] →
      GivesV (.shfl q d a b g 0) s w q d (fun l => if k l < S then given l (base l + k l) else x l) ∧
      GivesV (.shfl q d a b g 1) s w q d (fun l => if k l ≤ l - base l then given l (l - k l) else x l) ∧
      GivesV (.shfl q d a b g 2) s w q d (fun l => if l + k l < base l + S then given l (l + k l) else x l) ∧
      GivesV (.shfl q d a b g 3) s w q d (fun l => if k l < S then given l (l ^^^ k l) else x l)) ∧
    (CrossReady w q S [d.toNat, a.toNat] [d.toNat] [a.toNat] [] → i.toNat < S →
      GivesV (.bcast q d a i g) s w q d (fun l => given l (base l + i.toNat))) ∧
    (CrossReady w q S [d.toNat] [d.toNat] [] [p.toNat] → (m = 0 → S ≤ 32) →
      GivesV (.vote q d p g m) s w q d (fun l =>
        if m = 0 then BitVec.ofNat 32 ((List.range S).map (fun j => if yes (base l + j) then 2 ^ j else 0)).sum
        else if m = 1 then if (List.range 64).any (fun j => inSeg l j && yes j) then 1 else 0
        else if m = 2 then if (List.range 64).all (fun j => !(inSeg l j && act.getLsbD j) || yes j) then 1 else 0
        else BitVec.ofNat 32 ((List.range 64).countP (fun j => inSeg l j && yes j)))) ∧
    (CrossReady w q S [d.toNat, d.toNat + 1] [d.toNat, d.toNat + 1] [] [p.toNat] → S = 64 → d.toNat % 2 = 0 →
      RetiresQuietly (.vote q d p g 0) s w (fun w' => MovedOn w w' (lenOf q) ∧
        ∃ mid, WroteV w mid d.toNat act (zeroedA w q)
            (fun _ => BitVec.ofNat 32 ((List.range 32).map (fun j => if yes j then 2 ^ j else 0)).sum) ∧
          WroteV mid w' (d.toNat + 1) act (zeroedA w q)
            (fun _ => BitVec.ofNat 32 ((List.range 32).map (fun j => if yes (32 + j) then 2 ^ j else 0)).sum)))

/-- Reductions and running sums over the active lanes of each segment (16 R409, R411): integer sums are exact modulo 2^32, and
the others follow the fixed tree, or ascending lanes, with each combination counting its events once. -/
def Obligations.ReductionResults : Prop :=
  ∀ (s : State) (w : Warp) (q : Option APre) (d a : BitVec 7) (g m : BitVec 2), OnTurn s w →
    let act := activeA w q
    let S := segWidth w (getTeam s s.cur.1 w.team) g.toNat
    let x := fun l => (readLane w a.toNat l).toNat
    let seg := fun l j => j / S == l / S && act.getLsbD j
    let tree := fun k => redTree (redCombine w.nmode m.toNat) (Nat.log2 S)
      ((List.range S).map (fun j => if act.getLsbD (k * S + j) then some (x (k * S + j)) else none))
    let scan := fun k => scanLanes w.nmode m.toNat none (((lanesOf act).filter (fun l => l / S == k)).map (fun l => (l, x l)))
    CrossReady w q S [d.toNat, a.toNat] [d.toNat] [a.toNat] [] → S = 16 ∨ S = 32 ∨ S = 64 →
    ((m = 0 → poisonedTable w [nmodeWord] [] = false) → Retires (.vred q d a g m) s w ((List.range (64 / S)).flatMap (fun k => (tree k).2)) (fun w' => MovedOn w w' (lenOf q) ∧
      WroteV w w' d.toNat act (zeroedA w q) (fun l => BitVec.ofNat 32 ((tree (l / S)).1.getD 0)))) ∧
    GivesV (.vred q d a g 1) s w q d (fun l => BitVec.ofNat 32 (((List.range 64).filter (seg l)).map x).sum) ∧
    ((m = 0 → poisonedTable w [nmodeWord] [] = false) → Retires (.vscan q d a g m) s w ((List.range (64 / S)).flatMap (fun k => (scan k).2)) (fun w' => MovedOn w w' (lenOf q) ∧
      WroteV w w' d.toNat act (zeroedA w q) (fun l => BitVec.ofNat 32 (tget 0 (scan (l / S)).1 l)))) ∧
    GivesV (.vscan q d a g 1) s w q d (fun l => BitVec.ofNat 32 (((List.range (l + 1)).filter (seg l)).map x).sum) ∧
    GivesV (.vscan q d a g 2) s w q d (fun l => BitVec.ofNat 32 (((List.range l).filter (seg l)).map x).sum)

/-- The encodings of the uniform integer instructions, UMOV and UMOVI (15 R361, R362): fn 16 to 127, the shift code 3, and fields that must be
zero and are not, are illegal instructions with SUB 0. -/
def Claims.UniformWords : Prop :=
  ∀ (d a b : BitVec 6) (fn : BitVec 7) (i : BitVec 13) (j : BitVec 19) (n : BitVec 6),
    let word := fun (maj rest : Nat) => 2 ^ 31 + maj * 2 ^ 25 + d.toNat * 2 ^ 19 + rest
    let ur := fun (fn : Nat) => word 0x00 (a.toNat * 2 ^ 13 + b.toNat * 2 ^ 7 + fn)
    let ui := fun (maj rest : Nat) => word maj (a.toNat * 2 ^ 13 + rest)
    let reads := fun (x : Nat) (k : Instr) => decodeWords [x] = .ok k
    let illegal := fun (x : Nat) => ∃ e, decodeWords [x] = .error e ∧ e.sub = 0
    reads (ur 0) (.uadd d a b) ∧ reads (ur 1) (.usub d a b) ∧ reads (ur 2) (.umul d a b) ∧ reads (ur 3) (.umulhI d a b) ∧
    reads (ur 4) (.umulhN d a b) ∧ reads (ur 5) (.uand d a b) ∧ reads (ur 6) (.uor d a b) ∧ reads (ur 7) (.uxor d a b) ∧
    reads (ur 8) (.ushl d a b) ∧ reads (ur 9) (.ushr d a b) ∧ reads (ur 10) (.usar d a b) ∧ reads (ur 11) (.uminI d a b) ∧
    reads (ur 12) (.uminN d a b) ∧ reads (ur 13) (.umaxI d a b) ∧ reads (ur 14) (.umaxN d a b) ∧
    (b = 0 → reads (ur 15) (.umov d a)) ∧ (b ≠ 0 → illegal (ur 15)) ∧ (16 ≤ fn.toNat → illegal (ur fn.toNat)) ∧
    reads (ui 0x01 i.toNat) (.uaddi d a i) ∧ reads (ui 0x02 i.toNat) (.uandi d a i) ∧ reads (ui 0x03 i.toNat) (.uori d a i) ∧
    reads (ui 0x04 i.toNat) (.uxori d a i) ∧ reads (ui 0x05 n.toNat) (.ushlImm d a n) ∧
    reads (ui 0x05 (1 * 2 ^ 11 + n.toNat)) (.ushrImm d a n) ∧ reads (ui 0x05 (2 * 2 ^ 11 + n.toNat)) (.usarImm d a n) ∧
    (3 * 2 ^ 11 ≤ i.toNat ∨ i.toNat / 2 ^ 6 % 2 ^ 5 ≠ 0 → illegal (ui 0x05 i.toNat)) ∧ reads (word 0x06 j.toNat) (.umovi d j)

/-- The uniform integer instructions over the integers (15 R361, R362; 16 R402's uniform counterparts UMOV and UMOVI): they read two s
registers, or one and an immediate, and count no event. -/
def Claims.UniformResults : Prop :=
  ∀ (s : State) (w : Warp) (d a b : BitVec 6) (i : BitVec 13) (j : BitVec 19) (n : BitVec 6), OnTurn s w →
    let x := readS w a.toNat
    let y := readS w b.toNat
    (poisonedTable w [a.toNat, b.toNat] [] = false →
      GivesS (.uadd d a b) s w d (BitVec.ofNat 64 (x.toNat + y.toNat)) ∧
      GivesS (.usub d a b) s w d (BitVec.ofInt 64 (x.toNat - y.toNat : Int)) ∧
      GivesS (.umul d a b) s w d (BitVec.ofNat 64 (x.toNat * y.toNat)) ∧
      GivesS (.umulhI d a b) s w d (BitVec.ofInt 64 (x.toInt * y.toInt / 2 ^ 64)) ∧
      GivesS (.umulhN d a b) s w d (BitVec.ofNat 64 (x.toNat * y.toNat / 2 ^ 64)) ∧
      GivesS (.uand d a b) s w d (x &&& y) ∧
      GivesS (.uor d a b) s w d (x ||| y) ∧
      GivesS (.uxor d a b) s w d (x ^^^ y) ∧
      GivesS (.ushl d a b) s w d (BitVec.ofNat 64 (x.toNat * 2 ^ y.toNat)) ∧
      GivesS (.ushr d a b) s w d (BitVec.ofNat 64 (x.toNat / 2 ^ y.toNat)) ∧
      GivesS (.usar d a b) s w d (BitVec.ofInt 64 (x.toInt / 2 ^ y.toNat)) ∧
      GivesS (.uminI d a b) s w d (BitVec.ofInt 64 (min x.toInt y.toInt)) ∧
      GivesS (.uminN d a b) s w d (BitVec.ofNat 64 (min x.toNat y.toNat)) ∧
      GivesS (.umaxI d a b) s w d (BitVec.ofInt 64 (max x.toInt y.toInt)) ∧
      GivesS (.umaxN d a b) s w d (BitVec.ofNat 64 (max x.toNat y.toNat))) ∧
    (poisonedTable w [a.toNat] [] = false →
      GivesS (.umov d a) s w d x ∧
      GivesS (.uaddi d a i) s w d (BitVec.ofInt 64 (x.toInt + i.toInt)) ∧
      GivesS (.uandi d a i) s w d (x &&& BitVec.ofInt 64 i.toInt) ∧
      GivesS (.uori d a i) s w d (x ||| BitVec.ofInt 64 i.toInt) ∧
      GivesS (.uxori d a i) s w d (x ^^^ BitVec.ofInt 64 i.toInt) ∧
      GivesS (.ushlImm d a n) s w d (BitVec.ofNat 64 (x.toNat * 2 ^ n.toNat)) ∧
      GivesS (.ushrImm d a n) s w d (BitVec.ofNat 64 (x.toNat / 2 ^ n.toNat)) ∧
      GivesS (.usarImm d a n) s w d (BitVec.ofInt 64 (x.toInt / 2 ^ n.toNat))) ∧
    GivesS (.umovi d j) s w d (BitVec.ofInt 64 j.toInt)

/-- ULIT, UFROMV and SETW (14 R342; 15 R360, R366, R370): ULIT writes one half and reads the other, which it leaves; UFROMV
reads the lowest lane of the path alone; SETW at the team's entry address writes the grant. -/
def Obligations.UniformTransfers : Prop :=
  ∀ (s : State) (w : Warp) (d : BitVec 6) (lit : Word) (i : BitVec 7) (e : BitVec 1) (r : BitVec 2) (l : Nat), OnTurn s w →
    lowest w.path = some l →
    let old := readS w d.toNat
    let lanePoison := fun (n : Nat) => (tget 0 w.vPoison n).getLsbD l
    (poisonedTable w [128 + d.toNat] [] = false → RetiresQuietly (.ulit d 0 lit) s w (fun w' => MovedOn w w' 8 ∧
      WroteS w w' d.toNat (BitVec.ofNat 64 (old.toNat / 2 ^ 32 * 2 ^ 32 + lit.toNat)))) ∧
    (poisonedTable w [192 + d.toNat] [] = false → RetiresQuietly (.ulit d 1 lit) s w (fun w' => MovedOn w w' 8 ∧
      WroteS w w' d.toNat (BitVec.ofNat 64 (lit.toNat * 2 ^ 32 + old.toNat % 2 ^ 32)))) ∧
    (poisonedTable w [128 + d.toNat] [] = true → TakesFault (.ulit d 0 lit) s w 0x26 2 0 false w.path 0) ∧
    (poisonedTable w [192 + d.toNat] [] = true → TakesFault (.ulit d 1 lit) s w 0x26 2 0 false w.path 0) ∧
    (i.toNat < w.areg → lanePoison i.toNat = false →
      GivesS (.ufromv d i 0) s w d (BitVec.ofNat 64 (readLane w i.toNat l).toNat)) ∧
    (i.toNat % 2 = 0 → i.toNat + 1 < w.areg → lanePoison i.toNat = false → lanePoison (i.toNat + 1) = false →
      GivesS (.ufromv d i 1) s w d
        (BitVec.ofNat 64 ((readLane w (i.toNat + 1) l).toNat * 2 ^ 32 + (readLane w i.toNat l).toNat))) ∧
    (pathPc w = (getTeam s s.cur.1 w.team).entry → GivesS (.setw d e r) s w d (BitVec.ofNat 64 w.grant))

/-- Branches (13 R313, R314; 14 R330, R337; 15 R365; 04 R70): the whole path takes the target, or the next address, or each lane its own
under BRV. A BRV that splits the path runs the part with the lowest lane first, with every lane that can run and stands at its PC (02 R28,
R29). -/
def Obligations.Branches : Prop :=
  ∀ (s : State) (w : Warp) (o25 : BitVec 25) (o19 : BitVec 19) (o10 : BitVec 10) (a b : BitVec 6) (k : BitVec 3) (p : BitVec 5)
    (n : BitVec 1), OnTurn s w →
    let pc := pathPc w
    let to25 := BitVec.ofInt 64 (pc.toNat + 4 * o25.toInt)
    let goes := fun (i : Instr) (x : DWord) => RetiresQuietly i s w (fun w' => MovedTo w w' (fun _ => x) ∧ w'.still = w.still)
    goes .nop (pc + 4) ∧
    goes (.bra o25) to25 ∧
    RetiresQuietly (.call o25) s w (fun w' => MovedTo w w' (fun _ => to25) ∧ WroteS w w' 63 (pc + 4)) ∧
    (poisonedTable w [a.toNat, b.toNat] [] = false → k.toNat < 6 →
      let x := readS w a.toNat
      let y := readS w b.toNat
      let holds := match k.toNat with
        | 0 => x = y
        | 1 => x ≠ y
        | 2 => x.toInt < y.toInt
        | 3 => y.toInt ≤ x.toInt
        | 4 => x.toNat < y.toNat
        | _ => y.toNat ≤ x.toNat
      (holds → goes (.ub k a b o10) (BitVec.ofInt 64 (pc.toNat + 4 * o10.toInt))) ∧ (¬holds → goes (.ub k a b o10) (pc + 4))) ∧
    (poisonedTable w [a.toNat] [] = false → (readS w a.toNat).toNat % 4 = 0 → canonical (readS w a.toNat) = true →
      goes (.jmpi a) (readS w a.toNat)) ∧
    (poisonedTable w [a.toNat] [] = false → (readS w a.toNat).toNat % 4 ≠ 0 →
      TakesFault (.jmpi a) s w 0x22 0 0 false w.path (readS w a.toNat)) ∧
    (poisonedTable w [a.toNat] [] = false → (readS w a.toNat).toNat % 4 = 0 → canonical (readS w a.toNat) = false →
      TakesFault (.jmpi a) s w 0x23 36 0 false w.path (readS w a.toNat)) ∧
    (poisonedTable w [63] [] = false → (readS w 63).toNat % 4 = 0 → canonical (readS w 63) = true → goes .ret (readS w 63)) ∧
    (poisonedTable w [] [p.toNat] = false → PathOk w → JoinsPending w →
      let target := BitVec.ofInt 64 (pc.toNat + 4 * o19.toInt)
      let at_ := fun l => if (readP w p.toNat).getLsbD l = (n == 0) then target else pc + 4
      RetiresQuietly (.brv p n o19) s w (fun w' =>
        MovedTo w w' at_ ∧ w'.still.sansPath = w.still.sansPath ∧
        ((∀ l m, w.path.getLsbD l = true → w.path.getLsbD m = true → at_ l = at_ m) → w'.path = w.path) ∧
        (∀ low, lowest w.path = some low → (∃ l, w.path.getLsbD l = true ∧ at_ l ≠ at_ low) → ∀ l, l < 64 →
          w'.path.getLsbD l = ((selectable w).getLsbD l && decide (pcOf w' l = at_ low)))))

/-- JENR and JWAIT (02 R31; 14 R329): JENR enrols the path's lanes with the join PC, in place of an earlier one, and where a lane leaves a
rejoin that its departure completes, the lanes that wait there leave too; a JWAIT blocks the lanes enrolled at it and lets the others pass; once
every enrolled lane waits or has exited, all leave as one path past the JWAIT, their enrolment cleared. A JWAIT that reads a poisoned join PC
faults (03 R54; 10 R238). -/
def Obligations.Rejoins : Prop :=
  ∀ (s : State) (w : Warp) (j : BitVec 3) (o : BitVec 21), OnTurn s w → PathOk w →
    let pc := pathPc w
    let here := fun l => tfind w.j (j.toNat * 64 + l) == some pc
    let waits := fun l => tfind w.blocks l == some (.jwait j.toNat pc)
    let readable := poisonedJ w j.toNat = 0
    let target := BitVec.ofInt 64 (pc.toNat + 4 * o.toInt)
    let after := fun k => if k / 64 = j.toNat ∧ w.path.getLsbD (k % 64) then some target else tfind w.j k
    let joinWords := fun k => ∃ l, l < 64 ∧ w.path.getLsbD l = true ∧ (k = joinWord j.toNat l ∨ k = joinWord j.toNat l + 1)
    let pending := fun (e : Nat × DWord) => ∃ l, l < 64 ∧ after (e.1 * 64 + l) = some e.2 ∧ (liveLanes w).getLsbD l = true ∧
      tfind w.blocks l ≠ some (.jwait e.1 e.2)
    (poisonedJ w j.toNat ≠ 0 → TakesFault (.jwait j) s w 0x26 2 0 false (poisonedJ w j.toNat) 0) ∧
    ((∀ e, e ∈ waitedJoins w → pending e) →
      RetiresQuietly (.jenr j o) s w (fun w' => MovedOn w w' 4 ∧ w'.blocks = w.blocks ∧
        { w'.still.sansJoin with wtPoison := w.wtPoison } = w.still.sansJoin ∧
        (∀ k, k ∈ w'.wtPoison ↔ k ∈ w.wtPoison ∧ ¬joinWords k) ∧ ∀ k, tfind w'.j k = after k)) ∧
    (∀ p, w.tm = false → (j.toNat, p) ∈ waitedJoins w → ¬pending (j.toNat, p) → (∀ e, e ∈ waitedJoins w → e ≠ (j.toNat, p) → pending e) →
      let waited := fun l => tfind w.blocks l == some (.jwait j.toNat p)
      (∀ l, l < 64 → waited l = true → tfind w.j (j.toNat * 64 + l) = some p ∧ (liveLanes w).getLsbD l = true) →
      RetiresQuietly (.jenr j o) s w (fun w' => w'.retired = w.retired + 1 ∧
        (∀ l, l < 64 → pcOf w' l = if waited l then p + 4 else if w.path.getLsbD l then pc + 4 else pcOf w l) ∧
        (∀ l, l < 64 → tfind w'.blocks l = if waited l then none else tfind w.blocks l) ∧
        (∀ k, tfind w'.j k = if k / 64 = j.toNat ∧ waited (k % 64) then none else after k) ∧
        (∀ l, l < 64 → w'.path.getLsbD l = ((liveLanes w).getLsbD l &&
          (waited l || ((tfind w.blocks l).isNone && decide ((if w.path.getLsbD l then pc + 4 else pcOf w l) = p + 4))))) ∧
        { w'.still.sansPath.sansJoin with wtPoison := w.wtPoison } = w.still.sansPath.sansJoin)) ∧
    (readable → JoinsPending w → (∀ l, w.path.getLsbD l = true → here l = false) →
      RetiresQuietly (.jwait j) s w (fun w' => MovedOn w w' 4 ∧ w'.still = w.still)) ∧
    (readable → JoinsPending w → (∀ l, w.path.getLsbD l = true → here l = true) →
      (∃ l, l < 64 ∧ here l = true ∧ (liveLanes w).getLsbD l = true ∧ w.path.getLsbD l = false ∧ waits l = false) →
      RetiresQuietly (.jwait j) s w (fun w' => w'.retired = w.retired + 1 ∧ (∀ l, l < 64 → pcOf w' l = pcOf w l) ∧ w'.j = w.j ∧
        (∀ l, l < 64 → tfind w'.blocks l = if w.path.getLsbD l then some (.jwait j.toNat pc) else tfind w.blocks l) ∧
        w'.still.sansPath.sansJoin = w.still.sansPath.sansJoin ∧ (w'.path &&& w.path) = 0)) ∧
    (readable → (∀ e, e ∈ waitedJoins w → e = (j.toNat, pc)) → w.tm = false →
      (∀ l, w.path.getLsbD l = true → here l = true) →
      (∀ l, l < 64 → here l = true → (liveLanes w).getLsbD l = true → w.path.getLsbD l = true ∨ waits l = true) →
      (∀ l, l < 64 → waits l = true → here l = true ∧ (liveLanes w).getLsbD l = true) →
      RetiresQuietly (.jwait j) s w (fun w' => w'.retired = w.retired + 1 ∧
        (∀ l, l < 64 → pcOf w' l = if here l && (liveLanes w).getLsbD l then pc + 4 else pcOf w l) ∧
        (∀ l, l < 64 → tfind w'.blocks l = if here l && (liveLanes w).getLsbD l then none else tfind w.blocks l) ∧
        (∀ k, tfind w'.j k =
          if k / 64 = j.toNat ∧ here (k % 64) = true ∧ (liveLanes w).getLsbD (k % 64) = true then none else tfind w.j k) ∧
        (∀ l, l < 64 → w'.path.getLsbD l = ((liveLanes w).getLsbD l &&
          (here l || ((tfind w.blocks l).isNone && decide (pcOf w l = pc + 4))))) ∧
        (∀ k, k ∈ w'.wtPoison ↔ k ∈ w.wtPoison ∧ ¬∃ l, l < 64 ∧ here l = true ∧ (liveLanes w).getLsbD l = true ∧ (k = pcWord l ∨ k = pcWord l + 1)) ∧
        { w'.still.sansPath.sansJoin with wtPoison := w.wtPoison } = w.still.sansPath.sansJoin))

/-- EXIT (13 R322; 02 R36): the active lanes have exited and the others of the path go on; no register, memory byte, or other core
changes; a whole-team barrier phase of the team loses the arrivals of an exiting thread, and completes where the arrivals left reach the
threads left, waking the lanes that it blocks. -/
def Obligations.Exits : Prop :=
  ∀ (s : State) (w : Warp) (q : Option APre), OnTurn s w → PathOk w → poisonedTable w [] (guardRegA q) = false →
    let act := activeA w q
    let live := liveThreads s s.cur.1 w.team
    (∃ t w', exec (.exit q) s = .next t ∧ getWarp t s.cur.1 s.cur.2 = some w' ∧ w'.exited = w.exited ||| act ∧
      w'.retired = w.retired + 1 ∧ w'.v = w.v ∧ w'.s = w.s ∧ w'.p = w.p ∧ w'.d = w.d ∧ w'.nmode = w.nmode ∧ w'.tm = w.tm ∧
      (∀ l, l < 64 → w.path.getLsbD l = true → act.getLsbD l = false → pcOf w' l = pathPc w + BitVec.ofNat 64 (lenOf q)) ∧
      (∀ l, act.getLsbD l = true → w'.path.getLsbD l = false) ∧
      (∀ a, mread t.mem a = mread s.mem a) ∧ (∀ n, n ≠ s.cur.1 → getCore t n = getCore s n) ∧ t.slices = s.slices ∧ t.ops = s.ops) ∧
    (∀ l b bar, act = oneLane l → l < 64 → tfind (getTeam s s.cur.1 w.team).bars b = some bar →
      ((getTeam s s.cur.1 w.team).bars.map (fun e => e.1)).Nodup →
      let arrived := tget 0 bar.arrivals (w.warpix * w.grant + l)
      ∃ t bar', exec (.exit q) s = .next t ∧ tfind (getTeam t s.cur.1 w.team).bars b = some bar' ∧
        (bar.whole = false ∨ bar.count = 0 → bar' = bar) ∧
        (bar.whole = true → bar.count ≠ 0 → bar.count - arrived = 0 ∨ bar.count - arrived < live - 1 →
          bar'.phase = bar.phase ∧ bar'.count = bar.count - arrived ∧ bar'.whole = true) ∧
        (bar.whole = true → bar.count ≠ 0 → bar.count - arrived ≠ 0 → live - 1 ≤ bar.count - arrived →
          bar'.phase = !bar.phase ∧ bar'.count = 0 ∧
            ∀ k x, k ≠ s.cur.2 → getWarp s s.cur.1 k = some x → x.team = w.team → (x.blocks.map (fun e => e.1)).Nodup →
              ∃ x', getWarp t s.cur.1 k = some x' ∧ ∀ i, tfind x.blocks i = some (.bar b) → tfind x'.blocks i = none))

/-- Team barriers (02 R36; 13 R307-R309): BARWAIT blocks without arriving; arrivals below the expected count are added up, and block under
BARSYNC; the lanes whose arrivals reach it flip the phase and wake the lanes that it blocks, in every warp of the team, and go on, under BARARR
and BARSYNC alike; a count that R309 refuses is an illegal operand. Lanes that wait at a rejoin wait on. -/
def Obligations.TeamBarriers : Prop :=
  ∀ (s : State) (w : Warp) (a : BitVec 6) (b : BitVec 4), OnTurn s w → PathOk w → JoinsPending w →
    let team := getTeam s s.cur.1 w.team
    let bar := tget {} team.bars b.toNat
    let n := (readS w a.toNat).toNat
    let m := countLanes w.path
    let live := liveThreads s s.cur.1 w.team
    let need := if bar.count = 0 then (if a = 0 then live else n) else if bar.whole then live else bar.expected
    let refused := (a ≠ 0 ∧ (n = 0 ∨ team.threads < n)) ∨ (bar.count ≠ 0 ∧ ((bar.whole = true ↔ a ≠ 0) ∨ (a ≠ 0 ∧ bar.expected ≠ n)))
    RetiresQuietly (.barwait a b) s w (fun w' => MovedOn w w' 4 ∧
      (∀ l, l < 64 → tfind w'.blocks l = if w.path.getLsbD l then some (.bar b.toNat) else tfind w.blocks l) ∧
      w'.still.sansPath.sansJoin = w.still.sansPath.sansJoin ∧ w'.j = w.j) ∧
    (poisonedTable w [a.toNat] [] = false → refused →
      TakesFault (.bararr a b) s w 0x21 3 0 false w.path 0 ∧ TakesFault (.barsync a b) s w 0x21 3 0 false w.path 0) ∧
    (poisonedTable w [a.toNat] [] = false → ¬refused → bar.count + m < need →
      (∃ t w', exec (.bararr a b) s = .next t ∧ getWarp t s.cur.1 s.cur.2 = some w' ∧ MovedOn w w' 4 ∧ w'.still = w.still ∧
        (tget {} (getTeam t s.cur.1 w.team).bars b.toNat).count = bar.count + m ∧
        (tget {} (getTeam t s.cur.1 w.team).bars b.toNat).phase = bar.phase ∧ (∀ x, mread t.mem x = mread s.mem x)) ∧
      (∃ t w', exec (.barsync a b) s = .next t ∧ getWarp t s.cur.1 s.cur.2 = some w' ∧ MovedOn w w' 4 ∧
        (∀ l, l < 64 → tfind w'.blocks l = if w.path.getLsbD l then some (.bar b.toNat) else tfind w.blocks l) ∧
        w'.still.sansPath.sansJoin = w.still.sansPath.sansJoin ∧
        (tget {} (getTeam t s.cur.1 w.team).bars b.toNat).count = bar.count + m ∧
        (tget {} (getTeam t s.cur.1 w.team).bars b.toNat).phase = bar.phase)) ∧
    (poisonedTable w [a.toNat] [] = false → ¬refused → bar.count + m = need → ∀ i, i ∈ [Instr.bararr a b, .barsync a b] →
      ∃ t w', exec i s = .next t ∧ getWarp t s.cur.1 s.cur.2 = some w' ∧ MovedOn w w' 4 ∧ w'.j = w.j ∧
        ((w.blocks.map (fun e => e.1)).Nodup → ∀ l, l < 64 →
          tfind w'.blocks l = if tfind w.blocks l = some (.bar b.toNat) then none else tfind w.blocks l) ∧
        (tget {} (getTeam t s.cur.1 w.team).bars b.toNat).count = 0 ∧
        (tget {} (getTeam t s.cur.1 w.team).bars b.toNat).phase = !bar.phase ∧
        (∀ l, w.path.getLsbD l = true → w'.path.getLsbD l = true) ∧
        ∀ k x, k ≠ s.cur.2 → getWarp s s.cur.1 k = some x → (x.blocks.map (fun e => e.1)).Nodup →
          ∃ x', getWarp t s.cur.1 k = some x' ∧ (x.team ≠ w.team → x' = x) ∧
            (x.team = w.team → ∀ l, (tfind x.blocks l = some (.bar b.toNat) → tfind x'.blocks l = none) ∧
              (tfind x.blocks l ≠ some (.bar b.toNat) → tfind x'.blocks l = tfind x.blocks l)))

/-- Reading special registers (14 R348-R350): each selector gives what R348 says it holds, or faults where its word of the warp table is
poisoned (03 R54); CLK moves on by a number of cycles that is free (log 2). -/
def Obligations.SpecialReads : Prop :=
  ∀ (s : State) (w : Warp) (d : BitVec 6) (c : BitVec 3), OnTurn s w →
    let team := getTeam s s.cur.1 w.team
    let core := getCore s s.cur.1
    let bank := core.bank w.bank
    let ctx := getCtx s w.slice w.ctx
    let e := excGet s s.cur.1 w.slice w.ctx c.toNat
    let gives := fun (sel : BitVec 13) (x : DWord) => GivesS (.sread d sel) s w d x
    gives 0x000 (BitVec.ofNat 64 w.grant) ∧
    (∀ l, lowest w.path = some l → gives 0x001 (BitVec.ofNat 64 l)) ∧
    gives 0x002 (BitVec.ofNat 64 w.warpix) ∧
    (team.coord.1 < 2 ^ 21 ∧ team.coord.2.1 < 2 ^ 21 ∧ team.coord.2.2 < 2 ^ 21 →
      gives 0x003 (BitVec.ofNat 64 (team.coord.1 + team.coord.2.1 * 2 ^ 21 + team.coord.2.2 * 2 ^ 42))) ∧
    (team.shape.1 < 2 ^ 16 ∧ team.shape.2.1 < 2 ^ 16 ∧ team.shape.2.2 < 2 ^ 16 →
      gives 0x004 (BitVec.ofNat 64 (team.shape.1 + team.shape.2.1 * 2 ^ 16 + team.shape.2.2 * 2 ^ 32))) ∧
    (team.gridDim.1 < 2 ^ 21 ∧ team.gridDim.2.1 < 2 ^ 21 ∧ team.gridDim.2.2 < 2 ^ 21 →
      gives 0x005 (BitVec.ofNat 64 (team.gridDim.1 + team.gridDim.2.1 * 2 ^ 21 + team.gridDim.2.2 * 2 ^ 42))) ∧
    gives 0x006 (if w.producer then 1 else 0) ∧
    (∀ l, lowest w.path = some l → poisonedTable w [wswWord] [] = false → gives 0x007 (BitVec.ofNat 64 (l * 2 ^ 8 + w.det.toNat * 2 ^ 6 + w.regrant.toNat * 2 ^ 5 +
      w.scopemis.toNat * 2 ^ 4 + w.grantChanged.toNat * 2 ^ 3 + w.qpend.toNat * 2 ^ 2 + w.tm.toNat * 2 + w.step.toNat))) ∧
    (poisonedTable w [nmodeWord] [] = false → gives 0x008 (BitVec.ofNat 64 w.nmode.toNat)) ∧
    gives 0x009 w.trapBase ∧ gives 0x00A w.trapCause ∧ gives 0x00B w.trapPc ∧ gives 0x00C w.trapLanes ∧ gives 0x00D w.trapAddr ∧
    gives 0x00F w.retired ∧
    gives (0x010 + c.setWidth 13) (BitVec.ofNat 64 e.count) ∧
    gives (0x018 + c.setWidth 13) (BitVec.ofNat 64 (ctx.thr.getD c.toNat 0)) ∧
    gives (0x020 + c.setWidth 13) (BitVec.ofNat 64 (e.since / 1024 % 2 ^ 24 * 2 ^ 24 + ctx.win.getD c.toNat 0)) ∧
    gives (0x028 + c.setWidth 13) (BitVec.ofNat 64 (e.fired.toNat * 4 + ctx.act.getD c.toNat 0)) ∧
    gives 0x030 (bank.tagRdy &&& BitVec.ofNat 64 ((2 ^ team.tagCount - 1) * 2 ^ team.tagBase)) ∧
    (poisonedTable w [ocntWord] [] = false → gives 0x031 (BitVec.ofNat 64 (w.counts.getD 0 0 + w.counts.getD 1 0 * 2 ^ 8 +
      w.counts.getD 2 0 * 2 ^ 16 + w.counts.getD 3 0 * 2 ^ 24))) ∧
    (∀ sel word, (sel, word) ∈ [((0x007 : BitVec 13), wswWord), (0x008, nmodeWord), (0x031, ocntWord), (0x032, allotWord)] →
      poisonedTable w [word] [] = true → TakesFault (.sread d sel) s w 0x26 2 0 false w.path 0) ∧
    (poisonedTable w [allotWord] [] = false →
      gives 0x032 (BitVec.ofNat 64 (w.areg + w.deep * 2 ^ 16 + w.amax * 2 ^ 32 + w.dmax * 2 ^ 40))) ∧
    gives 0x033 (BitVec.ofNat 64 w.ctx) ∧
    ∃ t w', exec (.sread d 0x00E) s = .next t ∧ getWarp t s.cur.1 s.cur.2 = some w' ∧ MovedOn w w' 4 ∧
      WroteS w w' d.toNat (core.clk + Config.elapsed s.fresh) ∧ (getCore t s.cur.1).clk = core.clk + Config.elapsed s.fresh ∧
      t.fresh = s.fresh + 1 ∧ t.mem = s.mem ∧ t.slices = s.slices

/-- Writing special registers (14 R350; 05 R105, R112, R113; 10 R223): a legal value takes effect, and one that the register's own rule
refuses, or a read-only register, is an illegal operand that changes nothing. What is written to an exception register while retirements
share an arithmetic cycle takes effect at the cycle's end (05 R115; log 104). -/
def Obligations.SpecialWrites : Prop :=
  ∀ (s : State) (w : Warp) (a : BitVec 6) (c : BitVec 3), OnTurn s w → poisonedTable w [a.toNat] [] = false →
    let x := readS w a.toNat
    let ctx := getCtx s w.slice w.ctx
    let e := excGet s s.cur.1 w.slice w.ctx c.toNat
    let address := x.toNat % 4 = 0 ∧ canonical x = true
    let alone := (getCore s s.cur.1).cycle = none
    let least := fun (sel : Nat) => if sel < 0x20 then 2 ^ 32 else if sel < 0x28 then 2 ^ 48 else 8
    let setting := fun (sel : BitVec 13) (P : State → Prop) => ∃ t w', exec (.swrite a sel) s = .next t ∧
      getWarp t s.cur.1 s.cur.2 = some w' ∧ MovedOn w w' 4 ∧ w'.still = w.still ∧ (∀ k, mread t.mem k = mread s.mem k) ∧ P t
    (x.toNat < 2 ^ 32 → (∀ i, i < 8 → x.toNat / 2 ^ (4 * i) % 8 ≤ 4) →
      RetiresQuietly (.swrite a 0x008) s w (fun w' => MovedOn w w' 4 ∧ w'.nmode = BitVec.ofNat 32 x.toNat ∧
        { w'.still with nmode := w.nmode, wtPoison := w.wtPoison } = w.still ∧
        ∀ k, k ∈ w'.wtPoison ↔ k ∈ w.wtPoison ∧ k ≠ nmodeWord)) ∧
    (¬(x.toNat < 2 ^ 32 ∧ ∀ i, i < 8 → x.toNat / 2 ^ (4 * i) % 8 ≤ 4) → TakesFault (.swrite a 0x008) s w 0x21 3 0 false w.path 0) ∧
    (address →
      RetiresQuietly (.swrite a 0x009) s w (fun w' => MovedOn w w' 4 ∧ w'.trapBase = x ∧
        { w'.still with trapBase := w.trapBase } = w.still) ∧
      RetiresQuietly (.swrite a 0x00B) s w (fun w' => MovedOn w w' 4 ∧ w'.trapPc = x ∧ { w'.still with trapPc := w.trapPc } = w.still)) ∧
    (¬address → TakesFault (.swrite a 0x009) s w 0x21 3 0 false w.path 0 ∧ TakesFault (.swrite a 0x00B) s w 0x21 3 0 false w.path 0) ∧
    (x &&& 0xFFFFFFFFFFFFC080 = 0 → PathOk w →
      RetiresQuietly (.swrite a 0x007) s w (fun w' => MovedOn w w' 4 ∧ w'.step = x.getLsbD 0 ∧ w'.tm = x.getLsbD 1 ∧
        w'.grantChanged = x.getLsbD 3 ∧ w'.scopemis = x.getLsbD 4 ∧
        w'.handlers = (if x.getLsbD 1 then if w.tm then w.handlers else w.path else 0) ∧
        w'.path = w.path ∧ w'.det = w.det ∧ w'.regrant = w.regrant ∧ w'.qpend = w.qpend)) ∧
    (x &&& 0xFFFFFFFFFFFFC080 ≠ 0 → TakesFault (.swrite a 0x007) s w 0x21 3 0 false w.path 0) ∧
    (x.toNat < 2 ^ 32 → alone →
      setting (0x010 + c.setWidth 13) (fun t => excGet t s.cur.1 w.slice w.ctx c.toNat = stepWindow { e with
        count := x.toNat,
        fired := if e.thr = 0 then e.fired else if x.toNat < e.thr then false else e.fired || decide (e.count < e.thr) }) ∧
      setting (0x018 + c.setWidth 13) (fun t =>
        getCtx t w.slice w.ctx = { ctx with thr := setAt ctx.thr c.toNat x.toNat } ∧
        (∀ n, n ∈ coresOf s w.slice → n ≠ s.cur.1 → excGet t n w.slice w.ctx c.toNat = excGet s n w.slice w.ctx c.toNat) ∧
        excGet t s.cur.1 w.slice w.ctx c.toNat = stepWindow { e with thr := x.toNat })) ∧
    (x.toNat < 2 ^ 48 → alone → setting (0x020 + c.setWidth 13) (fun t =>
      getCtx t w.slice w.ctx = { ctx with win := setAt ctx.win c.toNat (x.toNat % 2 ^ 24) } ∧
      excGet t s.cur.1 w.slice w.ctx c.toNat = stepWindow { e with win := x.toNat % 2 ^ 24, since := 0 })) ∧
    (x.toNat < 8 → alone → setting (0x028 + c.setWidth 13) (fun t =>
      getCtx t w.slice w.ctx = { ctx with act := setAt ctx.act c.toNat (x.toNat % 4) } ∧
      excGet t s.cur.1 w.slice w.ctx c.toNat = stepWindow { e with act := x.toNat % 4 })) ∧
    (∀ sel : BitVec 13, 0x10 ≤ sel.toNat → sel.toNat < 0x30 →
      (least sel.toNat ≤ x.toNat → TakesFault (.swrite a sel) s w 0x21 3 0 false w.path 0) ∧
      (x.toNat < least sel.toNat → ¬alone → setting sel (fun t =>
        (getCore t s.cur.1).late = (getCore s s.cur.1).late ++ [(s.cur.2, sel.toNat, x)] ∧
        (∀ k, excGet t s.cur.1 w.slice w.ctx k = excGet s s.cur.1 w.slice w.ctx k) ∧ getCtx t w.slice w.ctx = getCtx s w.slice w.ctx))) ∧
    (∀ sel : BitVec 13, sel.toNat ≤ 0x33 → sel ∉ [0x007, 0x008, 0x009, 0x00B] → sel.toNat < 0x10 ∨ 0x30 ≤ sel.toNat →
      TakesFault (.swrite a sel) s w 0x21 3 0 false w.path 0)

/-- VSHRINK and VGROW (16 R392; 03 R56): the allotment becomes the one asked for, what a shrink releases is gone, and a
grow changes nothing else; the word of the allotments has no poison then (03 R54); a size on the wrong side of the current allotment or beyond the role's is an illegal operand. -/
def Obligations.AllotmentChanges : Prop :=
  ∀ (s : State) (w : Warp) (c : BitVec 5), OnTurn s w →
    let core := getCore s s.cur.1
    let n := 32 + 8 * c.toNat
    let m := 32 * c.toNat
    let clean := fun (w' : Warp) => ∀ k, k ∈ w'.wtPoison ↔ k ∈ w.wtPoison ∧ k ≠ allotWord
    (n ≤ w.areg → RetiresQuietly (.vshrink 0 c) s w (fun w' => MovedOn w w' 4 ∧ w'.areg = n ∧
      (∀ r, readV w' r = if r < n then readV w r else zeroLanes) ∧ (∀ r, tget 0 w'.vPoison r = if r < n then tget 0 w.vPoison r else 0) ∧
      clean w' ∧ { w'.still.sansV with areg := w.areg, wtPoison := w.wtPoison } = w.still.sansV)) ∧
    (m ≤ w.deep → (∀ k, k ∈ w.dPend → k < m * 64) → RetiresQuietly (.vshrink 1 c) s w (fun w' => MovedOn w w' 4 ∧ w'.deep = m ∧
      (∀ k, tget 0 w'.d k = if k < m * 64 then tget 0 w.d k else 0) ∧ (∀ k, k ∈ w'.dPoison ↔ k ∈ w.dPoison ∧ k < m * 64) ∧
      clean w' ∧ { w'.still with deep := w.deep, d := w.d, dPoison := w.dPoison, wtPoison := w.wtPoison } = w.still)) ∧
    (w.areg < n → TakesFault (.vshrink 0 c) s w 0x21 3 0 false w.path 0) ∧
    (w.deep < m → TakesFault (.vshrink 1 c) s w 0x21 3 0 false w.path 0) ∧
    (w.areg ≤ n → n ≤ w.amax → slowHeld core + (n - w.areg) * w.grant * 4 ≤ 3145728 →
      (inFast w = true → fastHeld core w.bank + (n - w.areg) * w.grant / 16 ≤ 5120) →
      RetiresQuietly (.vgrow 0 c) s w (fun w' => MovedOn w w' 4 ∧ w'.areg = n ∧ clean w' ∧
        { w'.still with areg := w.areg, wtPoison := w.wtPoison } = w.still)) ∧
    (w.deep ≤ m → m ≤ w.dmax → slowHeld core + (m - w.deep) * w.grant * 4 ≤ 3145728 →
      RetiresQuietly (.vgrow 1 c) s w (fun w' => MovedOn w w' 4 ∧ w'.deep = m ∧ clean w' ∧
        { w'.still with deep := w.deep, wtPoison := w.wtPoison } = w.still)) ∧
    (n < w.areg ∨ w.amax < n → TakesFault (.vgrow 0 c) s w 0x21 3 0 false w.path 0) ∧
    (m < w.deep ∨ w.dmax < m → TakesFault (.vgrow 1 c) s w 0x21 3 0 false w.path 0)

/-- Taking traps (10 R224, R226, R229; 13 R312; 14 R357; 02 R34): a software trap, a breakpoint and a width trap enter the handler;
with traps masked they are double traps, and with no handler converted faults. The width trap comes before poisoned words and guards (log 29). -/
def Obligations.TrapsTaken : Prop :=
  ∀ (s : State) (w : Warp) (c : BitVec 13) (q : Option APre) (d a b i : BitVec 7) (p : BitVec 5) (g m : BitVec 2), OnTurn s w →
    let takes := fun (x : Instr) (code info : Nat) (lanes : LaneMask) =>
      (w.tm = false → w.trapBase ≠ 0 → TakesTrap x s w code info lanes) ∧
      (w.tm = true → TakesFault x s w 0x29 0 code false lanes 0) ∧
      (w.tm = false → w.trapBase = 0 → TakesFault x s w code 0 info true lanes 0)
    let S := segWidth w (getTeam s s.cur.1 w.team) g.toNat
    decodeWords [2 ^ 31 + 0x16 * 2 ^ 25 + c.toNat] = .ok (.trap c) ∧ takes (.trap c) 1 c.toNat w.path ∧
    decodeWords [0xB0000000] = .ok .bkpt ∧ takes .bkpt 2 0 w.path ∧
    (w.grant < S → S ≤ 64 → d.toNat < w.areg → a.toNat < w.areg → b.toNat < w.areg →
      takes (.shfl q d a b g m) 5 S (activeA w q) ∧ takes (.vred q d a g m) 5 S (activeA w q) ∧
      takes (.vscan q d a g m) 5 S (activeA w q) ∧ takes (.bcast q d a i g) 5 S (activeA w q) ∧
      (m ≠ 0 ∨ S ≠ 64 ∨ (d.toNat % 2 = 0 ∧ d.toNat + 1 < w.areg) → takes (.vote q d p g m) 5 S (activeA w q)))

/-- Leaving a handler (10 R227; 14 R359): the lanes that entered it and have not exited go on at TRAPPC, or past the instruction there
(past both words of a prefixed instruction or a ULIT), out of any block; the next path is chosen among all lanes that can run. Outside a
handler TRET is an illegal instruction with SUB 4. -/
def Obligations.HandlersLeft : Prop :=
  ∀ (s : State) (w : Warp) (k : BitVec 1), OnTurn s w →
    let back := fun l => w.handlers.getLsbD l && !w.exited.getLsbD l
    let runs := fun l => (liveLanes w).getLsbD l && ((tfind w.blocks l).isNone || back l)
    let left := fun (w' : Warp) (resume : DWord) =>
      w'.retired = w.retired + 1 ∧ w'.tm = false ∧ w'.handlers = 0 ∧ w'.inQuiesce = false ∧
      (∀ l, l < 64 → pcOf w' l = if back l then resume else pcOf w l) ∧
      (∀ l, l < 64 → tfind w'.blocks l = if back l then none else tfind w.blocks l) ∧ w'.j = w.j ∧
      (∀ low, (List.range 64).find? runs = some low →
        ∀ l, l < 64 → w'.path.getLsbD l = (runs l && decide (pcOf w' l = pcOf w' low))) ∧
      (∀ n, n ∈ w'.wtPoison ↔ n ∈ w.wtPoison ∧ ¬∃ l, l < 64 ∧ back l = true ∧ (n = pcWord l ∨ n = pcWord l + 1)) ∧
      { w'.still.sansPath.sansJoin with tm := w.tm, handlers := w.handlers, inQuiesce := w.inQuiesce, wtPoison := w.wtPoison } =
        w.still.sansPath.sansJoin
    (w.tm = true → RetiresQuietly (.tret 0) s w (fun w' => left w' w.trapPc)) ∧
    (w.tm = true → ∀ x u, fetchWord s s.cur.1 w.slice w.ctx w.trapPc = .word x u →
      ∃ t w', exec (.tret 1) s = .next t ∧ getWarp t s.cur.1 s.cur.2 = some w' ∧ (∀ a, mread t.mem a = mread s.mem a) ∧
        left w' (w.trapPc + if x / 2 ^ 25 = 0x3F ∨ x / 2 ^ 25 = 0x47 then 8 else 4)) ∧
    (w.tm = false → TakesFault (.tret k) s w 0x20 4 0 false w.path 0)

/-- A word that is no legal instruction (04 R68; 10 R220, R222) faults with CODE 0x20 and the SUB that says why. -/
def Obligations.IllegalInstructionFaults : Prop :=
  ∀ (s : State) (w : Warp) (sub : Nat), OnTurn s w → sub < 2 ^ 16 → TakesFault (.illegalInstruction sub) s w 0x20 sub 0 false w.path 0

/-- Translation (07 R168-R173; 11 R278) leaves the module as it is but for the TLBs, what the caches hold of the lines that its walks read, and,
for an access that writes, the dirty bit of the leaf of stage 2 that it takes, at that leaf's own place in memory, with that of the leaf of
the slice behind a UALink window of this package; every other byte of memory reads as before. The last 16 bits of an address stay, the
smallest page being 64 KiB (07 R169). -/
def Obligations.TranslationFrame : Prop :=
  ∀ (s t : State) (unit sl ctx k : Nat) (va : DWord) (acc : Acc), translate s unit sl ctx va acc = .ok (k, t) →
    { t with mem := s.mem, tlb := s.tlb, uses := s.uses, l2 := s.l2, llc := s.llc } = s ∧
    (TlbOk s → k % 2 ^ 16 = va.toNat % 2 ^ 16 ∧ TlbOk t) ∧
    ∃ l1 s1, leaf1 s unit sl ctx (va57 va) = .ok (l1, s1) ∧ s1.mem = s.mem ∧
      let ia := (l1.out + va57 va % l1.size) % 2 ^ 52
      (inWindow ia = true → acc.writes = false ∧ ∀ a, mread t.mem a = mread s.mem a) ∧
      (inWindow ia = false → ∃ l s2, leaf2 s1 unit sl ia = .ok (l, s2) ∧ s2.mem = s.mem ∧
        let pa := l.out + ia % l.size
        let changed := fun (places : List Nat) =>
          ∀ a, mread t.mem a = if a ∈ places then mread s.mem a ||| 0x10 else mread s.mem a
        (isLink pa = false → k = memKey (slicePort s sl) pa ∧ changed (dirtyPlace l acc)) ∧
        (isLink pa = true → ∃ e s3, routeOf (getSlice s sl) pa = some e ∧ useLeaf2 s2 unit sl ia l acc = .ok s3 ∧
          let target := routeTarget e % 16
          let peer := pkgKey e pa % 2 ^ 50
          ((k = pkgKey e pa ∧ changed (dirtyPlace l acc)) ∨
            (routeTarget e / 16 = s.pkgid ∧ keyTaken s target (bits e.toNat 91 60) = true ∧
              ∃ l' s4, leaf2 s3 (peerUnit target) target peer = .ok (l', s4) ∧ k = l'.out + peer % l'.size ∧
                changed (dirtyPlace l acc ++ dirtyPlace l' acc)))))

/-- Vector loads (16 R393-R396; 04 R73; 03 R48): each active lane receives the bytes at its address as its own core sees them, or, of a
relaxed load that has executed before its retirement, as it saw them then, zero-extended, sign-extended, or in two or four registers; to the
core every byte looks as before, but where a copy has left to make room (`SeenKept`). An acquire first makes its copies fresh (`acquireLines`;
07 R150, 08 R179); without one memory is as translation left it. -/
def Obligations.VectorLoads : Prop :=
  ∀ (s : State) (w : Warp) (q : Option MPre) (d : BitVec 7) (b : BitVec 6) (o : BitVec 7) (z : BitVec 3) (u : BitVec 2), OnTurn s w →
    let act := activeM w q
    let size := vmSize z.toNat
    let n := vmRegs z.toNat
    let index := fun l =>
      let x := readLane w o.toNat l
      if u = 0 then BitVec.ofNat 64 x.toNat else if u = 1 then BitVec.ofInt 64 x.toInt else BitVec.ofNat 64 (x.toNat * size)
    let addr := fun l => readS w b.toNat + index l + offOf q
    let ck := checkLanes s.cur.1 w.slice w.ctx size .read ((lanesOf act).map (fun l => (l, addr l))) s
    let early := fun (l k : Nat) => if acqOf q = none then boundAt w l k size else none
    ∀ s1, Rising s.l2 → acquireLines ck.s s.cur.1 w.slice ((acqOf q).getD 0) (keyLines ck.keys) = some s1 →
    z.toNat ≤ 6 → d.toNat % n = 0 →
    Readable w act 0 (groupRegs d.toNat n ++ [o.toNat]) (groupRegs d.toNat n) [o.toNat] [b.toNat] (guardRegM q) →
    ck.fails.isEmpty = true → ck.waits = false →
    (∀ e, e ∈ ck.keys → e.2 % size = 0 ∧ (early e.1 e.2 = none →
      (loadBytes s1 s.cur.1 w.slice e.2 size).poisoned = false ∧ loadWaits s1 s.cur.1 w.slice e.2 size = false)) →
    ∃ t w', exec (.vld q d b o z u) s = .next t ∧ getWarp t s.cur.1 s.cur.2 = some w' ∧ MovedOn w w' (lenOf q) ∧
      WroteGroup w w' d.toNat n act (fun i l =>
        let k := tget 0 ck.keys l
        let v : Nat := match early l k with
          | some b => bytesNat b.bytes
          | none => seenNat s1 s.cur.1 w.slice k size
        if z = 5 then BitVec.ofInt 32 (Int.bmod v (2 ^ 8)) else if z = 6 then BitVec.ofInt 32 (Int.bmod v (2 ^ 16))
        else BitVec.ofNat 32 (v / 2 ^ (32 * i))) ∧
      (orderM q = 0 → w'.scopemis = w.scopemis) ∧ OthersKeep s t ∧
      t.mem = s1.mem ∧ (acqOf q = none → s1 = ck.s) ∧
      (∀ a, SeenKept s1 t s.cur.1 w.slice a) ∧ t.slices = s.slices

/-- Uniform loads (15 R367-R369): one load for the path, which may have executed before its retirement (03 R48), zero-extended or sign-extended
into an s register. -/
def Obligations.UniformLoads : Prop :=
  ∀ (s : State) (w : Warp) (d a : BitVec 6) (z : BitVec 3) (o : BitVec 10), OnTurn s w →
    let size := uSize z.toNat
    let addr := readS w a.toNat + BitVec.ofInt 64 (o.toInt * size)
    let ck := checkLanes s.cur.1 w.slice w.ctx size .read [(0, addr)] s
    ∀ k, Rising s.l2 → z.toNat ≤ 6 → poisonedTable w [a.toNat] [] = false → ck.fails.isEmpty = true → ck.waits = false → ck.keys = [(0, k)] →
    (boundAt w 64 k size = none →
      (loadBytes ck.s s.cur.1 w.slice k size).poisoned = false ∧ loadWaits ck.s s.cur.1 w.slice k size = false) → k % size = 0 →
    ∃ t w', exec (.uld d a z o) s = .next t ∧ getWarp t s.cur.1 s.cur.2 = some w' ∧ MovedOn w w' 4 ∧
      (let v : Nat := match boundAt w 64 k size with
         | some b => bytesNat b.bytes
         | none => seenNat ck.s s.cur.1 w.slice k size
       WroteS w { w' with seen := w.seen } d.toNat (if 4 ≤ z.toNat then BitVec.ofInt 64 (Int.bmod v (2 ^ (8 * size))) else BitVec.ofNat 64 v)) ∧
      OthersKeep s t ∧ t.mem = ck.s.mem ∧ (∀ x, SeenKept ck.s t s.cur.1 w.slice x) ∧ t.slices = s.slices

/-- Stores (15 R367-R369; 16 R393-R396; 03 R45, R49; 08 R177): the bytes of each active lane's store enter the core's store buffer at its
address, a higher lane's bytes over a lower one's; every other byte looks to the core as it did, or, where the store is a release, as a fresh
copy of it does (08 R185; log 117); memory is as translation left it. -/
def Obligations.Stores : Prop :=
  ∀ (s : State) (w : Warp) (q : Option MPre) (d : BitVec 7) (b : BitVec 6) (o : BitVec 7) (z : BitVec 3) (u : BitVec 2) (d' a' : BitVec 6)
    (o' : BitVec 10), OnTurn s w →
    let core := s.cur.1
    (let act := activeM w q
     let size := vmSize z.toNat
     let n := vmRegs z.toNat
     let index := fun l =>
       let x := readLane w o.toNat l
       if u = 0 then BitVec.ofNat 64 x.toNat else if u = 1 then BitVec.ofInt 64 x.toInt else BitVec.ofNat 64 (x.toNat * size)
     let addr := fun l => readS w b.toNat + index l + offOf q
     let ck := checkLanes core w.slice w.ctx size .write ((lanesOf act).map (fun l => (l, addr l))) s
     let covers := fun (e : Nat × Nat) (x : Nat) => e.2 ≤ x ∧ x < e.2 + size
     z.toNat ≤ 4 → d.toNat % n = 0 →
     Readable w act 0 (groupRegs d.toNat n ++ [o.toNat]) [] (groupRegs d.toNat n ++ [o.toNat]) [b.toNat] (guardRegM q) →
     ck.fails.isEmpty = true → ck.waits = false → (∀ e, e ∈ ck.keys → e.2 % size = 0) →
     bufferCount (getCore ck.s core) + countLanes act ≤ 64 →
     ∃ t w', exec (.vst q d b o z u) s = .next t ∧ getWarp t core s.cur.2 = some w' ∧ MovedOn w w' (lenOf q) ∧ w'.still = w.still ∧
       (∀ k, k ≠ s.cur.2 → getWarp t core k = getWarp s core k) ∧ (∀ k, k ≠ core → getCore t k = getCore s k) ∧
       t.slices = s.slices ∧ t.mem = ck.s.mem ∧
       (∀ x, (∀ e, e ∈ ck.keys → ¬covers e x) →
         seenByte t core w.slice x = seenByte (acquireCopies ck.s core w.slice ((relOf q).getD 0)) core w.slice x) ∧
       (∀ e x, e ∈ ck.keys → covers e x → (∀ f, f ∈ ck.keys → covers f x → f.1 ≤ e.1) →
         seenByte t core w.slice x = BitVec.ofNat 8 ((readLane w (d.toNat + (x - e.2) / 4) e.1).toNat / 2 ^ (8 * ((x - e.2) % 4))))) ∧
    (let size := uSize z.toNat
     let low := (lowest w.path).getD 0
     let addr := readS w a'.toNat + BitVec.ofInt 64 (o'.toInt * size)
     let ck := checkLanes core w.slice w.ctx size .write [(low, addr)] s
     ∀ k, z.toNat ≤ 3 → poisonedTable w [d'.toNat, a'.toNat] [] = false →
     ck.fails.isEmpty = true → ck.waits = false → ck.keys = [(low, k)] → k % size = 0 → bufferCount (getCore ck.s core) < 64 →
     ∃ t w', exec (.ust d' a' z o') s = .next t ∧ getWarp t core s.cur.2 = some w' ∧ MovedOn w w' 4 ∧ w'.still = w.still ∧
       (∀ j, j ≠ s.cur.2 → getWarp t core j = getWarp s core j) ∧ (∀ j, j ≠ core → getCore t j = getCore s j) ∧
       t.slices = s.slices ∧ t.mem = ck.s.mem ∧
       (∀ x, ¬(k ≤ x ∧ x < k + size) → seenByte t core w.slice x = seenByte ck.s core w.slice x) ∧
       (∀ i, i < size → seenByte t core w.slice (k + i) = BitVec.ofNat 8 ((readS w d'.toNat).toNat / 2 ^ (8 * i))))

/-- One atomic read-modify-write at the point of performance of its line (15 R378; 07 R150; 08 R177, R183): the operation's new value
replaces the old one, a failed compare-and-swap leaves memory, no other byte of memory changes, and afterwards the core finds no older copy
of what the atomic observed. -/
def Obligations.AtomicOperation : Prop :=
  ∀ (c : Cx) (s : State) (op k data swap : Nat) (lanes : LaneMask) (own : Option Nat) (hint : Nat), op ≤ 11 → k % atomSize op = 0 → data < 2 ^ (8 * atomSize op) →
    let n := atomSize op
    let old := bytesNat ((List.range n).map (fun i => portByte s (k + i)))
    let signed := fun (x : Nat) => Int.bmod x (2 ^ 32)
    let new := match op with
      | 0 => (old + data) % 2 ^ 32
      | 1 => if signed data < signed old then data else old
      | 2 => min old data
      | 3 => if signed old < signed data then data else old
      | 4 => max old data
      | 5 => old &&& data
      | 6 => old ||| data
      | 7 => old ^^^ data
      | 8 => data
      | 9 => swap % 2 ^ 32
      | 10 => (opAdd .f32 (nmodeRm c.w.nmode .f32) (nmodeSat c.w.nmode .f32) old data).1 % 2 ^ 32
      | _ => (old + data) % 2 ^ 64
    let r := atomAt c op k data swap lanes own hint s
    r.1.old = old ∧ (if op = 9 ∧ old ≠ data then r.2.mem = s.mem else bytesNat (mreadN r.2.mem k n) = new) ∧
    (isCode s k = false → (∀ x, l2Find s c.w.slice (lineOf k) = some x → x.dirty = []) → ∀ i, i < n →
      newestByte (getCore s c.core) (k + i) = none → seenByte r.2 c.core c.w.slice (k + i) = mread r.2.mem (k + i)) ∧
    (∀ a, a < k ∨ k + n ≤ a → mread r.2.mem a = mread s.mem a) ∧
    (op ≠ 10 → r.1.events = []) ∧ (MemoryOk s → MemoryOk r.2)

/-- Atomics (15 R363, R364, R377-R379): every lane is checked first, the core's older stores to the lines and the slice's own bytes of
them reach the point of performance, and then the lanes perform their operations one after another in ascending order, each receiving the old value. -/
def Obligations.Atomics : Prop :=
  ∀ (s : State) (w : Warp) (q : Option MPre) (d o : BitVec 7) (b : BitVec 6) (p : BitVec 5) (d' a' : BitVec 6) (sc : BitVec 3) (od : BitVec 2),
    OnTurn s w → p.toNat ≤ 11 →
    let core := s.cur.1
    let c : Cx := ⟨s, core, s.cur.2, w, getTeam s core w.team⟩
    let op := p.toNat
    let size := atomSize op
    let clear := fun (u : State) (ks : List (Nat × Nat)) =>
      ∀ e, e ∈ ks → isPoisoned u e.2 = false ∧ reach u w.slice e.2 = .ok
    (let act := activeM w q
     let n := if op = 9 ∨ op = 11 then 2 else 1
     let addr := fun l => readS w b.toNat + BitVec.ofNat 64 (readLane w o.toNat l).toNat + offOf q
     let ck := checkLanes core w.slice w.ctx size .atomic ((lanesOf act).map (fun l => (l, addr l))) s
     let lo := fun l => (readLane w d.toNat l).toNat
     let hi := fun l => (readLane w (d.toNat + 1) l).toNat
     let own := relOf q
     ∀ s1, d.toNat % n = 0 →
     Readable w act 0 (groupRegs d.toNat n ++ [o.toNat]) (if op = 9 then [d.toNat] else groupRegs d.toNat n)
       (groupRegs d.toNat n ++ [o.toNat]) (b.toNat :: if op = 10 then [nmodeWord] else []) (guardRegM q) →
     (w.det = true → scopeM q < 3) → ck.fails.isEmpty = true → ck.waits = false →
     drainFor ck.s core w.slice own (c.fencesBefore act) (ck.keys.map (fun e => e.2)) = some s1 → clear s1 ck.keys →
     let r := atomLanes c op false own (hintM q)
       (ck.keys.map (fun e => (e.1, e.2, if op = 11 then lo e.1 + hi e.1 * 2 ^ 32 else lo e.1, hi e.1))) s1
     ∃ t w', exec (.vatom q d b o p) s = .next t ∧ getWarp t core s.cur.2 = some w' ∧ MovedOn w w' (lenOf q) ∧
       WroteGroup w w' d.toNat (if op = 11 then 2 else 1) act (fun i l => BitVec.ofNat 32 (atomOld r.1 l / 2 ^ (32 * i))) ∧
       t.mem = r.2.mem) ∧
    (let low := (lowest w.path).getD 0
     let x := (readS w d'.toNat).toNat
     let ck := checkLanes core w.slice w.ctx size .atomic [(low, readS w a'.toNat)] s
     let own := if od = 2 ∨ od = 3 then some (scopeOf sc.toNat) else none
     ∀ s1 k, poisonedTable w (a'.toNat :: d'.toNat :: if op = 9 then [d'.toNat + 1] else if op = 10 then [nmodeWord] else []) [] = false →
     (w.det = true → scopeOf sc.toNat < 3) → ck.fails.isEmpty = true → ck.waits = false → ck.keys = [(low, k)] →
     drainFor ck.s core w.slice own (c.fencesBefore w.path) [k] = some s1 → clear s1 [(low, k)] →
     let r := atomAt c op k (if op = 11 then x else x % 2 ^ 32) ((readS w (d'.toNat + 1)).toNat % 2 ^ 32) w.path own 0 s1
     ∃ t w', exec (.uatom d' a' p sc od) s = .next t ∧ getWarp t core s.cur.2 = some w' ∧ MovedOn w w' 4 ∧
       WroteS w { w' with seen := w.seen, scopemis := w.scopemis } d'.toNat
         (if op = 0 ∨ op = 1 ∨ op = 3 then BitVec.ofInt 64 (Int.bmod r.1.old (2 ^ 32)) else BitVec.ofNat 64 r.1.old) ∧
       t.mem = r.2.mem)

/-- Fences (13 R325; 07 R150; 08 R178, R179, R184): a release at .cl or wider writes the core's older stores to their homes, and at .sl or
wider what its slice's ways hold for the ports goes there too; either gives up the core's clean copies at .cl or wider, and its slice's
copies of lines behind ports at .sl or wider (08 R179, R185; log 117); a release is counted among the core's fences, and no register
changes. -/
def Claims.Fences : Prop :=
  ∀ (s : State) (w : Warp) (sc : BitVec 3) (k : BitVec 2), OnTurn s w →
    let core := s.cur.1
    let lands := k ≠ 1 ∧ 3 ≤ sc.toNat
    (lands → StoresCanLand s core w.slice) →
    ∃ t w', exec (.fence sc k) s = .next t ∧ getWarp t core s.cur.2 = some w' ∧ MovedOn w w' 4 ∧ OthersKeep s t ∧
      { w'.still with seen := w.seen, scopemis := w.scopemis, relFence := w.relFence } = w.still ∧
      (k ≠ 1 → ∀ l, l < 64 → w.path.getLsbD l = true → tfind w'.relFence l = some sc.toNat) ∧
      (k ≠ 2 → ∀ e, e ∈ w'.seen → w.path.getLsbD e.1 = false) ∧
      (3 ≤ sc.toNat → (getCore t core).clean = []) ∧ (getCore t core).fences = (getCore s core).fences + (if k = 1 then 0 else 1) ∧
      (4 ≤ sc.toNat → ∀ line x, l2Find t w.slice (lineOf line) = some x → x.clean = []) ∧
      (lands → (getCore t core).pend = [] ∧
        (sc.toNat = 3 → ∀ a, homeByte t w.slice a = landedByte s core a (homeByte s w.slice a) ∨
          homeByte t w.slice a = landedByte s core a (freshByte s w.slice a)) ∧
        (4 ≤ sc.toNat → ∀ a, mread t.mem a = landedByte s core a (waitingByte s w.slice a))) ∧
      (¬lands → t.mem = s.mem ∧ (getCore t core).pend = (getCore s core).pend)

/-- Cache operations (13 R316; 14 R341; 07 R150): CWB and CINV write the range's lines toward the scope, at .sy what the slice's ways hold
of host memory goes to the host, CINV at .cl or wider also drops the clean copies, and PREF may fill copies; none changes a register, and
PREF and the operations at .tm leave what the core sees of memory (`SeenKept`). A size above 2^32 is an illegal operand, and a size of 0 does
nothing. -/
def Claims.CacheOperations : Prop :=
  ∀ (s : State) (w : Warp) (d a : BitVec 6) (k : BitVec 3), OnTurn s w → poisonedTable w [d.toNat, a.toNat] [] = false →
    let core := s.cur.1
    let size := (readS w d.toNat).toNat
    let at_ := readS w a.toNat
    (size = 0 → ∀ i, i ∈ [Instr.cwb d a k, Instr.cinv d a k, Instr.pref d a k] →
      RetiresQuietly i s w (fun w' => MovedOn w w' 4 ∧ w'.still = w.still)) ∧
    (2 ^ 32 < size → ∀ i, i ∈ [Instr.cwb d a k, Instr.cinv d a k, Instr.pref d a k] → TakesFault i s w 0x21 3 0 false w.path 0) ∧
    (0 < size → size ≤ 2 ^ 32 →
      ∃ t w', exec (.pref d a k) s = .next t ∧ getWarp t core s.cur.2 = some w' ∧ MovedOn w w' 4 ∧ w'.still = w.still ∧
        t.mem = s.mem ∧ t.slices = s.slices ∧ (Rising s.l2 → ∀ x, SeenKept s t core w.slice x)) ∧
    (0 < size → size ≤ 2 ^ 32 → ∀ rs u, rangeLines core w.slice w.ctx at_ size (blockStarts at_ size) s = .ok (rs, u) →
      (∃ t w', exec (.cwb d a 2) s = .next t ∧ getWarp t core s.cur.2 = some w' ∧ MovedOn w w' 4 ∧ w'.still = w.still ∧ t.mem = s.mem ∧
        (Rising s.l2 → ∀ x, SeenKept s t core w.slice x) ∧
        ((getCore s core).clean.length + (getCore s core).pend.length ≤ 2048 →
          ∀ e, e ∈ (getCore t core).pend → lineIn rs e.line = true → e.inL1 = true)) ∧
      (∃ t w', exec (.cinv d a 2) s = .next t ∧ getWarp t core s.cur.2 = some w' ∧ MovedOn w w' 4 ∧ w'.still = w.still ∧
        (Rising s.l2 → ∀ x, SeenKept s t core w.slice x)) ∧
      (3 ≤ k.toNat → StoresCanLand s core w.slice →
        (∃ t w', exec (.cwb d a k) s = .next t ∧ getWarp t core s.cur.2 = some w' ∧ MovedOn w w' 4 ∧ w'.still = w.still ∧
          (∀ e, e ∈ (getCore t core).pend → lineIn rs e.line = false) ∧
          (∀ x, lineIn rs (lineOf x) = true → homeByte t w.slice x = landedByte s core x (homeByte s w.slice x) ∨
            homeByte t w.slice x = landedByte s core x (freshByte s w.slice x)) ∧
          (k = 6 → ∀ x, lineIn rs (lineOf x) = true → isHost x = true →
            mread t.mem x = landedByte s core x (waitingByte s w.slice x))) ∧
        (∃ t w', exec (.cinv d a k) s = .next t ∧ getWarp t core s.cur.2 = some w' ∧ MovedOn w w' 4 ∧ w'.still = w.still ∧
          (∀ e, e ∈ (getCore t core).pend → lineIn rs e.line = false) ∧
          (∀ line, lineIn rs line = true → tfind (getCore t core).clean line = none) ∧
          (k = 6 → ∀ line, lineIn rs (lineOf line) = true → isHost (lineOf line) = true → l2Find t w.slice (lineOf line) = none))))

/-- The deep file (03 R54, R58, R59; 13 R319): DRD reads each active lane's entry and DWR writes it; a pending entry stalls DRD.blk and
DWR, and gives DRD.trp its trap; an index beyond the allotment is an illegal operand, and a poisoned entry a register ECC fault. -/
def Obligations.DeepFile : Prop :=
  ∀ (s : State) (w : Warp) (q : Option APre) (d a k : BitVec 7), OnTurn s w →
    let act := activeA w q
    let index := fun l => (readLane w a.toNat l).toNat + k.toNat
    let key := fun l => index l * 64 + l
    let beyond := maskOf (fun l => act.getLsbD l && decide (w.deep ≤ index l))
    let pending := maskOf (fun l => act.getLsbD l && w.dPend.contains (key l))
    let bad := maskOf (fun l => act.getLsbD l && w.dPoison.contains (key l))
    (VectorReady w q d.toNat [a.toNat] →
      (beyond = 0 → pending = 0 → bad = 0 →
        GivesV (.drdBlk q d a k) s w q d (fun l => tget 0 w.d (key l)) ∧ GivesV (.drdTrp q d a k) s w q d (fun l => tget 0 w.d (key l))) ∧
      (beyond ≠ 0 → TakesFault (.drdBlk q d a k) s w 0x21 0 0 false beyond 0 ∧ TakesFault (.drdTrp q d a k) s w 0x21 0 0 false beyond 0) ∧
      (beyond = 0 → pending ≠ 0 → Stalls (.drdBlk q d a k) s ∧
        ∃ t w', exec (.drdTrp q d a k) s = .next t ∧ getWarp t s.cur.1 s.cur.2 = some w' ∧ w'.trapPc = signed57 (pathPc w) ∧
          w'.trapLanes = pending &&& lanesBelow w.grant ∧ w'.v = w.v ∧ w'.d = w.d ∧ (w'.tm = true ∨ w'.faulted = true) ∧
          (w.tm = false → w.trapBase ≠ 0 → w'.trapCause = 6 ∧ w'.faulted = w.faulted ∧
            ∀ l, w.path.getLsbD l = true → pcOf w' l = w.trapBase)) ∧
      (beyond = 0 → pending = 0 → bad ≠ 0 → TakesFault (.drdBlk q d a k) s w 0x26 1 0 false bad 0)) ∧
    (Readable w act (zeroedA w q) [d.toNat, a.toNat] [] [d.toNat, a.toNat] [] (guardRegA q) →
      (beyond = 0 → pending = 0 → RetiresQuietly (.dwr q d a k) s w (fun w' => MovedOn w w' (lenOf q) ∧
        (∀ l, l < 64 → act.getLsbD l = true → tget 0 w'.d (key l) = readLane w d.toNat l ∧ key l ∉ w'.dPoison) ∧
        (∀ x, (∀ l, l < 64 → act.getLsbD l = true → key l ≠ x) → tget 0 w'.d x = tget 0 w.d x ∧ (x ∈ w'.dPoison ↔ x ∈ w.dPoison)) ∧
        { w'.still with d := w.d, dPoison := w.dPoison } = w.still)) ∧
      (beyond = 0 → pending ≠ 0 → Stalls (.dwr q d a k) s) ∧
      (beyond ≠ 0 → TakesFault (.dwr q d a k) s w 0x21 0 0 false beyond 0))

/-- Waits and completion tags (07 R164-R167; 14 R352; 16 R413, R415): WAITC and WAITT stall, retire, or fault with the error of an operation
they cover, WAITT with that at the lowest set tag which carries one; TFIRST gives the lowest set tag of the team's range; TCLR clears the tags it names, with their errors. -/
def Obligations.WaitsAndTags : Prop :=
  ∀ (s : State) (w : Warp) (k : BitVec 2) (n d a : BitVec 6), OnTurn s w →
    let team := getTeam s s.cur.1 w.team
    let bank := (getCore s s.cur.1).bank w.bank
    let range := BitVec.ofNat 64 ((2 ^ team.tagCount - 1) * 2 ^ team.tagBase)
    let m := readS w a.toNat
    let got := bank.tagRdy &&& m
    let fails := fun (l : Nat) => m.getLsbD l && bank.tagRdy.getLsbD l && (tfind bank.tagErrs l).isSome
    (poisonedTable w [ocntWord] [] = false → n.toNat < w.counts.getD k.toNat 0 → Stalls (.waitc k n) s) ∧
    (poisonedTable w [ocntWord] [] = false → w.counts.getD k.toNat 0 ≤ n.toNat → coveredError w k.toNat n.toNat = none →
      RetiresQuietly (.waitc k n) s w (fun w' => MovedOn w w' 4 ∧ w'.still = w.still)) ∧
    (∀ e, poisonedTable w [ocntWord] [] = false → w.counts.getD k.toNat 0 ≤ n.toNat → coveredError w k.toNat n.toNat = some e → e.err < 2 ^ 16 →
      TakesFault (.waitc k n) s w 0x27 e.err k.toNat false (e.lanes.getD w.path) e.addr) ∧
    GivesS (.tfirst d) s w d (BitVec.ofNat 64 (((List.range 64).find? (fun l => bank.tagRdy.getLsbD l && range.getLsbD l)).getD 64)) ∧
    (poisonedTable w [a.toNat] [] = false →
      (m &&& ~~~range ≠ 0 → TakesFault (.waitt d a 0) s w 0x21 3 0 false w.path 0 ∧ TakesFault (.waitt d a 1) s w 0x21 3 0 false w.path 0 ∧
        TakesFault (.tclr a) s w 0x21 3 0 false w.path 0) ∧
      (m = 0 → GivesS (.waitt d a 0) s w d 0 ∧ GivesS (.waitt d a 1) s w d 0) ∧
      (m ≠ 0 → m &&& ~~~range = 0 → (got = 0 → Stalls (.waitt d a 0) s) ∧ (got ≠ m → Stalls (.waitt d a 1) s)) ∧
      (m ≠ 0 → m &&& ~~~range = 0 → (∀ l, l < 64 → fails l = false) →
        (got ≠ 0 → GivesS (.waitt d a 0) s w d got) ∧ (got = m → GivesS (.waitt d a 1) s w d m)) ∧
      (∀ l e, m &&& ~~~range = 0 → l < 64 → fails l = true → (∀ j, j < l → fails j = false) → tfind bank.tagErrs l = some e →
        e.err < 2 ^ 16 → e.cls < 2 ^ 16 → TakesFault (.waitt d a 0) s w 0x27 e.err e.cls false w.path e.addr ∧
        (got = m → TakesFault (.waitt d a 1) s w 0x27 e.err e.cls false w.path e.addr)) ∧
      (m &&& ~~~range = 0 → ∃ t w', exec (.tclr a) s = .next t ∧ getWarp t s.cur.1 s.cur.2 = some w' ∧ MovedOn w w' 4 ∧
        w'.still = w.still ∧ ((getCore t s.cur.1).bank w.bank).tagRdy = bank.tagRdy &&& ~~~m ∧
        (∀ l, l < 64 → tfind ((getCore t s.cur.1).bank w.bank).tagErrs l = if m.getLsbD l then none else tfind bank.tagErrs l) ∧
        t.mem = s.mem ∧ t.slices = s.slices ∧ t.ops = s.ops))

/-- Asynchronous issue (07 R153, R157, R159, R163, R164; 06 R118, R132-R134; 13 R299-R301, R306, R317, R318; 14 R327, R334, R336; 16 R417): an
instruction whose descriptors and limits hold issues one operation with everything it captured; an invalid descriptor is an illegal operand
with SUB 2, a broken limit one with SUB 3; a counter at 63, or a full booth, stalls, as does a COLL while the walk to a member waits for a port
(11 R258). -/
def Obligations.AsynchronousIssue : Prop :=
  ∀ (s : State) (w : Warp) (t8 r8 : BitVec 8) (r b : BitVec 6) (tile : BitVec 7) (ws : BitVec 4), OnTurn s w →
    let team := getTeam s s.cur.1 w.team
    let desc := fun (n : BitVec 8) => tget 0 (getCtx s w.slice w.ctx).td n.toNat
    let d := desc t8
    let e := desc r8
    let p := readS w r.toNat
    let p0 := readS w b.toNat
    let p1 := readS w (b.toNat + 1)
    let p2 := readS w (b.toNat + 2)
    let issues := fun (i : Instr) (cls : Nat) (valid limits : Bool) (kind : OpKind) (tag : Option Nat) =>
      (valid = false → TakesFault i s w 0x21 2 0 false w.path 0) ∧
      (valid = true → limits = false → TakesFault i s w 0x21 3 0 false w.path 0) ∧
      (valid = true → limits = true → w.counts.getD cls 0 = 63 → Stalls i s) ∧
      (valid = true → limits = true → w.counts.getD cls 0 ≠ 63 → Issues i s w cls kind w.path tag 4)
    (poisonedTable w [b.toNat, b.toNat + 1, b.toNat + 2, nmodeWord] [] = false →
      issues (.cpy t8 r8 b) 0 (descValid d && descValid e) (copyLimits team e d p0 p1 p2) (.cpy e d p0 p1 p2)
        (if p2.getLsbD 44 then some (p2.toNat / 2 ^ 45 % 64) else none)) ∧
    (poisonedTable w [b.toNat, b.toNat + 1, b.toNat + 2] [] = false →
      let group := captureGroup s s.cur.1 w.slice (p0.toNat / 2 ^ 4 % 64) ((descFmt d).width / 8)
      let valid := descValid d && descNdim d == 1 && (descFmt d == .f32 || descFmt d == .bf16 || descFmt d == .i32)
      (valid = false → TakesFault (.coll t8 b) s w 0x21 2 0 false w.path 0) ∧
      (valid = true → group true = none → TakesFault (.coll t8 b) s w 0x21 3 0 false w.path 0) ∧
      (∀ g, valid = true → group true = some g →
        let limits := collLimits team d p0 p1 p2 g.members.length
        (limits = false → TakesFault (.coll t8 b) s w 0x21 3 0 false w.path 0) ∧
        (limits = true → w.counts.getD 3 0 = 63 ∨ group false = none → Stalls (.coll t8 b) s) ∧
        (limits = true → w.counts.getD 3 0 ≠ 63 → group false = some g →
          Issues (.coll t8 b) s w 3 (.coll d p0 p1 p2 g (getSlice s w.slice).kgen) w.path
            (if p0.getLsbD 16 then some (p0.toNat / 2 ^ 17 % 64) else none) 4))) ∧
    (poisonedTable w [r.toNat] [] = false →
      let tag := if p.getLsbD 54 then some (p.toNat / 2 ^ 55 % 64) else none
      issues (.accld t8 tile r) 0 (descValid d) (tileLimits team d tile.toNat p 4) (.accld d tile.toNat p) tag ∧
      (poisonedTable w [nmodeWord] [] = false →
        issues (.accst t8 tile r) 0 (descValid d) (tileLimits team d tile.toNat p 10) (.accst d tile.toNat p) tag) ∧
      issues (.mxmeta t8 r) 0 (descValid d) (metaLimits team d p) (.mxmeta d p) tag) ∧
    issues (.actld t8) 0 (descValid d) (descFmt d == .n32 && descNdim d == 1 && decide (256 ≤ descExt d 0)) (.actld d) none ∧
    (poisonedTable w [r.toNat] [] = false → descValid d = true → weightLimits d p = true →
      (w.counts.getD 1 0 = 63 ∨ boothFull s s.cur.1 = true → Stalls (.wload ws t8 r) s) ∧
      (w.counts.getD 1 0 ≠ 63 → boothFull s s.cur.1 = false →
        let gen := (tget 0 (tget {} s.engines (clusterOf s.cur.1)).gens ws.toNat + 1) % 2 ^ 16
        Issues (.wload ws t8 r) s w 1 (.wload ws.toNat d p gen) w.path none 4 ∧
        ∃ t, exec (.wload ws t8 r) s = .next t ∧ tget 0 (tget {} t.engines (clusterOf s.cur.1)).gens ws.toNat = gen))

/-- MXISSUE and GATH (06 R132-R134; 14 R327, R334): MXISSUE takes its block of sixteen words from the one active lane, and GATH makes
the entry of every active lane pending; with no active lane it issues nothing (04 R71). -/
def Obligations.MatrixAndGatherIssue : Prop :=
  ∀ (s : State) (w : Warp) (q : Option APre) (m : Option MPre) (a d o : BitVec 7) (b : BitVec 6) (u : BitVec 2), OnTurn s w →
    let c : Cx := ⟨s, s.cur.1, s.cur.2, w, getTeam s s.cur.1 w.team⟩
    (∀ l, lanesOf (activeA w q) = [l] →
      Readable w (activeA w q) 0 (groupRegs a.toNat 16) [] (groupRegs a.toNat 16) [] (guardRegA q) →
      let block := (List.range 16).map (fun i => readLane w (a.toNat + i) l)
      let w0 := (readLane w a.toNat l).toNat
      let tag := if bitOf w0 14 then some (w0 / 2 ^ 16 % 64) else none
      let list := fun (i : Nat) => if i = 0xFF then none else some (c.desc i)
      blockFields block = true → blockDescs c block = true → blockRegions c block = true → tagFits c.t tag = true →
      (boothFull s s.cur.1 = true ∨ w.counts.getD 1 0 = 63 → Stalls (.mxissue q a) s) ∧
      (boothFull s s.cur.1 = false → w.counts.getD 1 0 ≠ 63 →
        Issues (.mxissue q a) s w 1 (.mxissue block (c.desc (readLane w (a.toNat + 1) l).toNat) (list (readLane w (a.toNat + 9) l).toNat)
          (list (readLane w (a.toNat + 10) l).toNat)
          (meGen s (clusterOf s.cur.1) (readLane w (a.toNat + 2) l).toNat)) (activeA w q) tag (lenOf q))) ∧
    ((lanesOf (activeA w q)).length ≠ 1 →
      Readable w (activeA w q) 0 (groupRegs a.toNat 16) [] (groupRegs a.toNat 16) [] (guardRegA q) →
      TakesFault (.mxissue q a) s w 0x21 1 0 false w.path 0) ∧
    (let act := activeM w m
     let addrs := vmAddrs w act b.toNat o.toNat u.toNat 4 (offOf m)
     let index := fun l => (readLane w d.toNat l).toNat
     Readable w act 0 [d.toNat, o.toNat] [] [d.toNat, o.toNat] [b.toNat] (guardRegM m) →
     (∀ l, l < 64 → act.getLsbD l = true → index l < w.deep) →
     (act = 0 → RetiresQuietly (.gath m d b o u) s w (fun w' => MovedOn w w' (lenOf m) ∧ w'.still = w.still)) ∧
     (act ≠ 0 → (∀ e, e ∈ addrs → canonical e.2 = true ∧ e.2.toNat % 4 = 0) →
     (∀ l, l < 64 → act.getLsbD l = true → index l * 64 + l ∉ w.dPend) → w.counts.getD 2 0 ≠ 63 →
     Issues (.gath m d b o u) s w 2 (.gath (addrs.map (fun e => (e.1, index e.1, e.2))) (hintM m)) act none (lenOf m) ∧
     ∃ t w', exec (.gath m d b o u) s = .next t ∧ getWarp t s.cur.1 s.cur.2 = some w' ∧
       ∀ k, k ∈ w'.dPend ↔ k ∈ w.dPend ∨ ∃ l, l < 64 ∧ act.getLsbD l = true ∧ k = index l * 64 + l))

/-- The accumulator store (06 R142; 13 R302, R303, R305): ACCRD reads and ACCWR writes the element each lane's index names, the highest
lane of several that name one element winning, and ACCZ makes whole tiles +0; an index beyond the team's tiles is an illegal operand. -/
def Claims.Accumulators : Prop :=
  ∀ (s : State) (w : Warp) (q : Option APre) (d a f n : BitVec 7), OnTurn s w →
    let act := activeA w q
    let team := getTeam s s.cur.1 w.team
    let x := fun l => (readLane w a.toNat l).toNat
    let key := fun l => x l / 2 ^ 14 % 2 ^ 7 * 16384 + x l / 2 ^ 7 % 2 ^ 7 * 128 + x l % 2 ^ 7
    let off := maskOf (fun l => act.getLsbD l && decide (x l / 2 ^ 21 ≠ 0 ∨ team.accB ≤ x l / 2 ^ 14))
    let others := fun (t : State) => (∀ k, k ≠ w.team → getTeam t s.cur.1 k = getTeam s s.cur.1 k) ∧
      (∀ k, k ≠ s.cur.1 → getCore t k = getCore s k) ∧ (∀ k, k ≠ s.cur.2 → getWarp t s.cur.1 k = getWarp s s.cur.1 k) ∧
      t.mem = s.mem ∧ t.slices = s.slices
    (VectorReady w q d.toNat [a.toNat] → off = 0 → (∀ l, l < 64 → act.getLsbD l = true → key l ∉ team.accPoison) →
      GivesV (.accrd q d a) s w q d (fun l => tget 0 team.acc (key l))) ∧
    (VectorReady w q d.toNat [a.toNat] → off ≠ 0 → TakesFault (.accrd q d a) s w 0x21 3 0 false off 0) ∧
    (Readable w act 0 [d.toNat, a.toNat] [] [d.toNat, a.toNat] [] (guardRegA q) →
      (off ≠ 0 → TakesFault (.accwr q d a) s w 0x21 3 0 false off 0) ∧
      (off = 0 → ∃ t w', exec (.accwr q d a) s = .next t ∧ getWarp t s.cur.1 s.cur.2 = some w' ∧ MovedOn w w' (lenOf q) ∧
        w'.still = w.still ∧ others t ∧
        (∀ l, l < 64 → act.getLsbD l = true → (∀ j, j < 64 → act.getLsbD j = true → key j = key l → j ≤ l) →
          tget 0 (getTeam t s.cur.1 w.team).acc (key l) = readLane w d.toNat l ∧ key l ∉ (getTeam t s.cur.1 w.team).accPoison) ∧
        (∀ k, (∀ l, l < 64 → act.getLsbD l = true → key l ≠ k) →
          tget 0 (getTeam t s.cur.1 w.team).acc k = tget 0 team.acc k))) ∧
    (let lo := f.toNat * 16384
     let hi := (f.toNat + n.toNat + 1) * 16384
     (team.accB < f.toNat + n.toNat + 1 → TakesFault (.accz f n) s w 0x21 3 0 false w.path 0) ∧
     (f.toNat + n.toNat + 1 ≤ team.accB →
       ∃ t w', exec (.accz f n) s = .next t ∧ getWarp t s.cur.1 s.cur.2 = some w' ∧ MovedOn w w' 4 ∧ w'.still = w.still ∧ others t ∧
         ∀ k, tget 0 (getTeam t s.cur.1 w.team).acc k = (if lo ≤ k ∧ k < hi then 0 else tget 0 team.acc k) ∧
           (k ∈ (getTeam t s.cur.1 w.team).accPoison ↔ k ∈ team.accPoison ∧ ¬(lo ≤ k ∧ k < hi))))

/-- The descriptor table (07 R153, R154; 14 R354-R356): TDSET replaces one 8-byte word of a descriptor, TDGET reads one, TDINV clears one
descriptor or all, and TDPOOL copies a 64-byte record of the pool; the other descriptors and contexts stay. -/
def Claims.DescriptorTable : Prop :=
  ∀ (s : State) (w : Warp) (n : BitVec 8) (k : BitVec 3) (r : BitVec 6) (i : BitVec 17), OnTurn s w →
    let ctx := getCtx s w.slice w.ctx
    let desc := fun (u : State) (j : Nat) => tget 0 (getCtx u w.slice w.ctx).td j
    let changed := fun (t : State) (w' : Warp) => { w'.still with seen := w.seen } = w.still ∧
      { getCtx t w.slice w.ctx with td := ctx.td } = ctx ∧ (∀ sl c, (sl, c) ≠ (w.slice, w.ctx) → getCtx t sl c = getCtx s sl c) ∧
      (∀ a, mread t.mem a = mread s.mem a)
    GivesS (.tdget n k r) s w r ((desc s n.toNat).extractLsb' (64 * k.toNat) 64) ∧
    (poisonedTable w [r.toNat] [] = false →
      ∃ t w', exec (.tdset n k r) s = .next t ∧ getWarp t s.cur.1 s.cur.2 = some w' ∧ MovedOn w w' 4 ∧ changed t w' ∧
        (∀ j, j ≠ n.toNat → desc t j = desc s j) ∧
        ∀ j, j < 8 → (desc t n.toNat).extractLsb' (64 * j) 64 =
          if j = k.toNat then readS w r.toNat else (desc s n.toNat).extractLsb' (64 * j) 64) ∧
    (∃ t w', exec (.tdinv n) s = .next t ∧ getWarp t s.cur.1 s.cur.2 = some w' ∧ MovedOn w w' 4 ∧ changed t w' ∧
      ∀ j, desc t j = if j = n.toNat then 0 else desc s j) ∧
    (∃ t w', exec .tdinvAll s = .next t ∧ getWarp t s.cur.1 s.cur.2 = some w' ∧ MovedOn w w' 4 ∧ changed t w' ∧ ∀ j, desc t j = 0) ∧
    (let pool := (getTeam s s.cur.1 w.team).pool
     let ck := checkLanes s.cur.1 w.slice w.ctx 64 .read [(0, pool + BitVec.ofNat 64 (i.toNat * 64))] s
     (pool = 0 → TakesFault (.tdpool n i) s w 0x21 3 0 false w.path 0) ∧
     (∀ x, pool ≠ 0 → ck.fails.isEmpty = true → ck.waits = false → ck.keys = [(0, x)] → x % 64 = 0 →
       (boundAt w 64 x 64 = none →
         (loadBytes ck.s s.cur.1 w.slice x 64).poisoned = false ∧ loadWaits ck.s s.cur.1 w.slice x 64 = false) →
       ∃ t w', exec (.tdpool n i) s = .next t ∧ getWarp t s.cur.1 s.cur.2 = some w' ∧ MovedOn w w' 4 ∧ changed t w' ∧
         ∀ j, desc t j = if j = n.toNat then BitVec.ofNat 512 (match boundAt w 64 x 64 with
           | some b => bytesNat b.bytes
           | none => seenNat ck.s s.cur.1 w.slice x 64) else desc s j))

/-- Ordered append and mailboxes (09 R210-R212, R215; 14 R332, R339): a team's turn comes when every earlier team of the launch has claimed
or declined; a claim gives the counter's old value and adds to it; a pop gives the oldest message's address and completes its record, or
0 where none waits. -/
def Obligations.AppendAndMessages : Prop :=
  ∀ (s : State) (w : Warp) (d k : BitVec 6) (n : BitVec 4) (m : BitVec 6) (g : Grid), OnTurn s w →
    let team := getTeam s s.cur.1 w.team
    let grid := fun (u : State) => tfind (getSlice u w.slice).grids team.grid
    let reached := ∀ i, i < team.order → (n.toNat, i) ∈ g.claims
    let owns := g.resident = true ∧ (g.mbox = m.toNat ∨ g.resMask.getLsbD m.toNat = true)
    let msgs := tget {} g.msgs m.toNat
    grid s = some g →
    (poisonedTable w [k.toNat] [] = false → team.spawned = false → n.toNat ∉ team.claimed →
      (¬reached → Stalls (.oapp d k n) s) ∧
      (reached → ∃ t w' g', exec (.oapp d k n) s = .next t ∧ getWarp t s.cur.1 s.cur.2 = some w' ∧ MovedOn w w' 4 ∧
        WroteS w w' d.toNat (tget 0 g.counters n.toNat) ∧ grid t = some g' ∧
        tget 0 g'.counters n.toNat = tget 0 g.counters n.toNat + readS w k.toNat ∧ (n.toNat, team.order) ∈ g'.claims ∧
        (∀ j, j ≠ n.toNat → tget 0 g'.counters j = tget 0 g.counters j) ∧ n.toNat ∈ (getTeam t s.cur.1 w.team).claimed ∧ t.mem = s.mem) ∧
      (∃ t w' g', exec (.odecl n) s = .next t ∧ getWarp t s.cur.1 s.cur.2 = some w' ∧ MovedOn w w' 4 ∧ w'.still = w.still ∧
        grid t = some g' ∧ g'.counters = g.counters ∧ (n.toNat, team.order) ∈ g'.claims ∧
        n.toNat ∈ (getTeam t s.cur.1 w.team).claimed ∧ t.mem = s.mem)) ∧
    (poisonedTable w [k.toNat] [] = false → team.spawned = true ∨ n.toNat ∈ team.claimed →
      TakesFault (.oapp d k n) s w 0x21 3 0 false w.path 0 ∧ TakesFault (.odecl n) s w 0x21 3 0 false w.path 0) ∧
    (¬owns → TakesFault (.mbxwait m) s w 0x21 3 0 false w.path 0 ∧ TakesFault (.mbxpop d m) s w 0x21 3 0 false w.path 0) ∧
    (owns →
      (msgs.delivered ≤ msgs.popped → Stalls (.mbxwait m) s ∧ GivesS (.mbxpop d m) s w d 0) ∧
      (msgs.popped < msgs.delivered →
        RetiresQuietly (.mbxwait m) s w (fun w' => MovedOn w w' 4 ∧ w'.still = w.still) ∧
        ∃ t w' g', exec (.mbxpop d m) s = .next t ∧ getWarp t s.cur.1 s.cur.2 = some w' ∧ MovedOn w w' 4 ∧
          WroteS w w' d.toNat (g.msgArea + BitVec.ofNat 64 (m.toNat * 2048 + msgs.popped % 16 * 128)) ∧
          (getCore t s.cur.1).clean = [] ∧ grid t = some g' ∧ (tget {} g'.msgs m.toNat).popped = msgs.popped + 1 ∧
          (tget {} g'.msgs m.toNat).delivered = msgs.delivered ∧ t.mem = s.mem ∧
          ∀ seq rest, msgs.waiting = seq :: rest →
            ∀ h, h ∈ (tget {} (getSlice t w.slice).mboxes m.toNat).held → h.seq = seq → h.done = true ∧ h.status = 0))

/-- SPAWN (02 R38; 10 R230; 14 R346): the core's older stores become visible at .sl, and each active lane's thread enters the bin of its context, grid,
entry and grant, or the first empty bin; where every lane can have a bin, the instruction retires with as many threads more in bins and
launched batches as it had lanes to place; a bin that fills is launched while the context runs with no stop line up; a lane with no bin left stalls it, and the threads already placed stay. Deterministic mode
faults, and an entry address that is misaligned or not canonical is an illegal operand. -/
def Obligations.Spawns : Prop :=
  ∀ (s : State) (w : Warp) (q : Option APre) (a b : BitVec 6), OnTurn s w →
    let act := activeA w q
    let e := 2 * a.toNat
    let r := 2 * b.toNat
    let entry := fun l => BitVec.ofNat 64 ((readLane w (e + 1) l).toNat * 2 ^ 32 + (readLane w e l).toNat)
    let bad := maskOf (fun l => act.getLsbD l && ((entry l).toNat % 4 != 0 || !canonical (entry l)))
    let team := getTeam s s.cur.1 w.team
    Readable w act 0 [e, e + 1, r, r + 1] [] [e, e + 1, r, r + 1] [] (guardRegA q) →
    (w.det = true → TakesFault (.spawn q a b) s w 0x28 0 0 false act 0) ∧
    (w.det = false → bad ≠ 0 → TakesFault (.spawn q a b) s w 0x21 3 0 false bad 0) ∧
    (∀ s1, w.det = false → bad = 0 → drainScope s s.cur.1 w.slice 4 = some s1 →
      Rising (getCore s1 s.cur.1).bins → (getCore s1 s.cur.1).bins.length + countLanes act ≤ 16 →
      let threads := fun (u : State) => ((getCore u s.cur.1).bins.map (fun b => b.2.threads.length)).sum +
        ((getSlice u w.slice).batches.map (fun b => b.bin.threads.length)).sum
      ∃ t w', exec (.spawn q a b) s = .next t ∧ getWarp t s.cur.1 s.cur.2 = some w' ∧ MovedOn w w' (lenOf q) ∧
        { w'.still with placed := w.placed } = w.still ∧ w'.placed = 0 ∧ t.mem = s1.mem ∧
        threads t = threads s1 + countLanes (act &&& ~~~w.placed)) ∧
    (∀ s1 l bin, w.det = false → bad = 0 → drainScope s s.cur.1 w.slice 4 = some s1 → w.placed = 0 → act = oneLane l → l < 64 →
      binFor (getCore s1 s.cur.1).bins w.ctx team.grid (entry l) w.grant = some bin →
      let old := match tfind (getCore s1 s.cur.1).bins bin with
        | some x => x.threads
        | none => []
      let threads := old ++ [{ arg0 := readLane w r l, arg1 := readLane w (r + 1) l }]
      ∃ t w', exec (.spawn q a b) s = .next t ∧ getWarp t s.cur.1 s.cur.2 = some w' ∧ MovedOn w w' (lenOf q) ∧
        w'.still = w.still ∧ t.mem = s1.mem ∧
        (threads.length < w.grant ∨ binsLaunch s1 w.slice w.ctx = false →
          (tfind (getCore t s.cur.1).bins bin).map (fun x => x.threads) = some threads) ∧
        (w.grant ≤ threads.length → binsLaunch s1 w.slice w.ctx = true → tfind (getCore t s.cur.1).bins bin = none ∧
          ∃ x, (getSlice t w.slice).batches = (getSlice s1 w.slice).batches ++ [{ core := s.cur.1, bin := x }] ∧ x.threads = threads)) ∧
    (∀ s1 l, w.det = false → bad = 0 → drainScope s s.cur.1 w.slice 4 = some s1 → w.placed = 0 → act = oneLane l → l < 64 →
      binFor (getCore s1 s.cur.1).bins w.ctx team.grid (entry l) w.grant = none →
      ∃ t w', exec (.spawn q a b) s = .next t ∧ getWarp t s.cur.1 s.cur.2 = some w' ∧ w'.pcs = w.pcs ∧ w'.retired = w.retired ∧ w'.placed = 0)

/-- Path yields (02 R29) and the moves of warps between the fast and slow files (03 R62-R64): what each does, and that it changes nothing
else of the module. A warp that leaves its active slot loses its unretired instructions (03 R62). -/
def Claims.WarpMovement : Prop :=
  ∀ (s : State) (core slot : Nat) (w : Warp), getWarp s core slot = some w →
    let waits := ((getCore s core).bank w.bank).waitSeq
    (∀ m l, warpCanRun s core w = true → w.dispatch = none → lowest w.path = some m → 4096 ≤ w.pathRet → l < 64 → headsPath w l = true →
      ((m < l ∧ ∀ k, m < k → k < l → headsPath w k = false) ∨
        (l ≤ m ∧ (∀ k, m < k → k < 64 → headsPath w k = false) ∧ ∀ k, k < l → headsPath w k = false)) →
      exec (.pathYield core slot) s = .next (putWarp s core slot
        { w with path := maskOf (fun i => (selectable w).getLsbD i && pcOf w i == pcOf w l), pathRet := 0 })) ∧
    (∀ k, isReady s core w = true → k < 8 →
      (∀ e, e ∈ (getCore s core).warps → e.2.bank = w.bank → isReady s core e.2 = true → e = (slot, w) ∨ waitSeqOf w < waitSeqOf e.2) →
      slotTaken (getCore s core) w.bank k = false → (∀ j, j < k → slotTaken (getCore s core) w.bank j = true) →
      fastHeld (getCore s core) w.bank + (w.areg + 32) * w.grant / 16 ≤ 5120 →
      exec (.warpMoveIn core w.bank) s = .next (putWarp s core slot { w with loc := .active k })) ∧
    (∀ line, warpCanRun s core w = true → w.path ≠ 0 → w.parkedOn ≠ some (pathPc w) →
      missedLine { s := s, core := core, slot := slot, w := w, t := getTeam s core w.team } = some line →
      ∃ t, exec (.warpPark core slot) s = .next t ∧ WarpFrame s t core slot ∧ ((getCore t core).bank w.bank).waitSeq = waits + 1 ∧
        getWarp t core slot = some { discard w with parkedOn := some (pathPc w), loc := .parked waits line }) ∧
    (∀ n line, w.loc = .parked n line → reach s w.slice line ≠ .waits →
      ∃ t, exec (.parkedLineArrival core slot) s = .next t ∧ getWarp t core slot = some { w with loc := .waiting n } ∧
        (reach s w.slice line = .ok → (getCore s core).clean.length + (getCore s core).pend.length < 2048 → (tfind (getCore t core).clean line).isSome = true) ∧
        { t with cores := s.cores, uses := s.uses, l2 := s.l2, llc := s.llc } = s ∧
        (∀ m, m ≠ core → getCore t m = getCore s m) ∧ ∀ k, k ≠ slot → getWarp t core k = getWarp s core k) ∧
    (inFast w = true → slotWanted s core w.bank = true →
      ∀ i, i = .warpMoveOutIdle core slot ∨ i = .warpMoveOutTenure core slot →
        ∃ t, exec i s = .next t ∧ WarpFrame s t core slot ∧ ((getCore t core).bank w.bank).waitSeq = waits + 1 ∧
          getWarp t core slot = some { discard w with loc := .waiting waits })

/-- A core's swap to its other bank context and the spill after it (10 R240; 03 R65; 06 R145): the incoming context has work, and the
running one has none, is stopped or is of lower priority. The outgoing warps lose their unretired instructions. Only matrix operations that are suspended or go on change beside the running
bank, and, where the two contexts' tiles do not fit together, what their save area holds; the swap waits for a port of that area (11
R258). -/
def Claims.BankSwaps : Prop :=
  ∀ (s : State) (core sl ctx old : Nat),
    let c := getCore s core
    let inn := 1 - c.running
    let spills := decide (128 < tilesOf c 0 + tilesOf c 1)
    (sliceOfCore s core = some sl → (c.bank inn).owner = some ctx → (c.bank c.running).owner = some old →
      bankHasWork s core inn = true → (getCtx s sl ctx).stop = none →
      (bankHasWork s core c.running = false ∨ (getCtx s sl old).stop ≠ none ∨ ctxPrio s sl old < ctxPrio s sl ctx) →
      (spills = true → spillTiles s core sl c.running = none → exec (.bankSwap core) s = .next s) ∧
      (spills = false ∨ spillTiles s core sl c.running ≠ none → ∃ t, exec (.bankSwap core) s = .next t ∧ (getCore t core).running = inn ∧
        { getCore t core with running := c.running, bank0 := c.bank0, bank1 := c.bank1, warps := c.warps } = c ∧
        (∀ k w, getWarp s core k = some w → getWarp t core k = some (if w.bank = c.running then discard w else w)) ∧
        (∀ b, { (getCore t core).bank b with spilled := (c.bank b).spilled } = c.bank b) ∧
        (∀ n, n ≠ core → getCore t n = getCore s n) ∧
        (spills = false → { t with cores := s.cores, ops := s.ops } = s) ∧
        ∀ id o, tfind s.ops id = some o → ∃ o', tfind t.ops id = some o' ∧
          { o' with suspended := o.suspended, permit := o.permit, away := o.away } = o ∧
          (o.cls ≠ 1 ∨ o.core ≠ core ∨ o.finished = true → o' = o) ∧
          (o.cls = 1 → o.core = core → o.finished = false → o.bank = c.running →
            if spills = false then o' = o
              else o'.suspended = true ∧ o'.permit = .none ∧ (o'.away = true ↔ isWload o = false)) ∧
          (o.cls = 1 → o.core = core → o.finished = false → o.bank = inn → (getCtx s sl ctx).state ≠ 4 →
            o'.suspended = false ∧ o'.away = o.away ∧ o'.permit = o.permit))) ∧
    (∀ bank, c.running ≠ bank → (c.bank bank).spilled = false →
      exec (.backgroundSpill core bank) s = .next (putCore s core (c.putBank bank { c.bank bank with spilled := true })))

/-- A core acts on a context's settings (05 R112), a spawn bin's timer launches its threads (02 R38), and a register word takes an
uncorrectable error (03 R54). -/
def Claims.CoreEvents : Prop :=
  ∀ (s : State) (core slot : Nat),
    (∀ sl ctx cls, sliceOfCore s core = some sl → cls < 8 →
      ∃ t, exec (.settingReachesCore core ctx cls) s = .next t ∧
        (let e := excGet t core sl ctx cls
         let e0 := excGet s core sl ctx cls
         e.thr = (getCtx s sl ctx).thr.getD cls 0 ∧ e.win = (getCtx s sl ctx).win.getD cls 0 ∧
           e.act = (getCtx s sl ctx).act.getD cls 0 ∧ e.count = e0.count ∧ e.since = e0.since ∧ e.fired = e0.fired) ∧
        (∀ x k, k < 8 → (x, k) ≠ (ctx, cls) → excGet t core sl x k = excGet s core sl x k) ∧
        { t with cores := s.cores } = s ∧ (∀ n, n ≠ core → getCore t n = getCore s n) ∧
        { getCore t core with exc := (getCore s core).exc } = getCore s core) ∧
    (∀ sl bin b, sliceOfCore s core = some sl → tfind (getCore s core).bins bin = some b → (getCtx s sl b.ctx).stop = none →
      (getCtx s sl b.ctx).state = 2 →
      ∃ t, exec (.spawnBinTimer core bin) s = .next t ∧ tfind (getCore t core).bins bin = none ∧
        (getSlice t sl).batches = (getSlice s sl).batches ++ [{ core := core, bin := b }] ∧
        (∀ k, k ≠ bin → tfind (getCore t core).bins k = tfind (getCore s core).bins k) ∧
        { t with cores := s.cores, slices := s.slices } = s ∧ { getCore t core with bins := (getCore s core).bins } = getCore s core ∧
        { getSlice t sl with batches := (getSlice s sl).batches } = getSlice s sl) ∧
    (∀ w key, getWarp s core slot = some w →
      (key / 64 < w.areg → ∃ w', exec (.registerEccError core slot .v key) s = .next (putWarp s core slot w') ∧
        (∀ r l, l < 64 → (tget 0 w'.vPoison r).getLsbD l =
          ((tget 0 w.vPoison r).getLsbD l || decide (r = key / 64 ∧ l = key % 64))) ∧ { w' with vPoison := w.vPoison } = w) ∧
      (key / 64 < w.deep → ∃ w', exec (.registerEccError core slot .deep key) s = .next (putWarp s core slot w') ∧
        (∀ k, k ∈ w'.dPoison ↔ k ∈ w.dPoison ∨ k = key) ∧ { w' with dPoison := w.dPoison } = w) ∧
      (key < 2176 → ∃ w', exec (.registerEccError core slot .warpTable key) s = .next (putWarp s core slot w') ∧
        (∀ k, k ∈ w'.wtPoison ↔ k ∈ w.wtPoison ∨ k = key) ∧ { w' with wtPoison := w.wtPoison } = w) ∧
      (key < (getTeam s core w.team).accB * 16384 → ∃ t, exec (.registerEccError core slot .acc key) s = .next t ∧
        (∀ k, k ∈ (getTeam t core w.team).accPoison ↔ k ∈ (getTeam s core w.team).accPoison ∨ k = key) ∧
        { getTeam t core w.team with accPoison := (getTeam s core w.team).accPoison } = getTeam s core w.team ∧
        (∀ k, getWarp t core k = getWarp s core k) ∧ { t with cores := s.cores } = s))

/-- A retired store settles in the L1, joining what it finds there of its line, or reaches its home (03 R49, R50; 07 R149, R150; 08 R178): the
stack, the port, or the slice's own ways of a line behind a port; one that is refused there gives a deferred error. It stays in the store buffer
while the L1 has no room for its line (log 100). -/
def Claims.StoresReachHome : Prop :=
  ∀ (s : State) (core index : Nat) (e : PStore), (getCore s core).pend[index]? = some e →
    let c := getCore s core
    let sl := e.origin.slice
    (e.hint = 3 → exec (.storeBufferDrain core index false) s = .next s) ∧
    (e.hint ≠ 3 → l1Room c e.line = none → exec (.storeBufferDrain core index false) s = .next s) ∧
    (e.hint ≠ 3 → (l1Room c e.line).isSome = true → ∃ t, exec (.storeBufferDrain core index false) s = .next t ∧ t.mem = s.mem ∧ t.slices = s.slices ∧
      (∀ a, (newestByte (getCore t core) a).map (fun x => x.1) = (newestByte c a).map (fun x => x.1)) ∧
      bufferCount (getCore t core) = bufferCount c - (if e.inL1 then 0 else 1) ∧ (getCore t core).warps = c.warps) ∧
    ((∀ i f, i < index → c.pend[i]? = some f → e.release = false ∧ f.line ≠ e.line ∧ e.after ≤ f.epoch) →
      (landWaits s e = true → exec (.storeBufferDrain core index true) s = .next s) ∧
      (landWaits s e = false → landsAtPort s e = true → reach s sl e.line = .refused → (e.through = true → (flushSlice s sl).isSome = true) →
        ∃ t l d, exec (.storeBufferDrain core index true) s = .next t ∧ (getCore t core).pend = c.pend.eraseIdx index ∧
          t.deferred = s.deferred ++ l ++ [d] ∧ d.slice = sl ∧ d.ctx = e.origin.ctx ∧ d.sub = (if isHost e.line then 2 else 1) ∧
          (e.through = false → l = [] ∧ t.mem = s.mem)) ∧
      (StoresCanLand s core sl → ∃ t, exec (.storeBufferDrain core index true) s = .next t ∧
        (getCore t core).pend = c.pend.eraseIdx index ∧ (getCore t core).warps = c.warps ∧ t.slices = s.slices ∧
        (∀ b, b ∈ e.bytes → homeByte t sl b.1 = b.2) ∧
        (∀ a, (∀ b, b ∈ e.bytes → b.1 ≠ a) → HomeKept s t sl a) ∧
        (ownStack s sl e.line = true ∨ landsAtPort s e = true → ∀ b, b ∈ e.bytes → mread t.mem b.1 = b.2) ∧
        (e.through = false → ∀ a, (∀ b, b ∈ e.bytes → b.1 ≠ a) → mread t.mem a = mread s.mem a) ∧
        (if (ownStack s sl e.line = true ∨ landsAtPort s e = true) ∧ e.line ∈ s.wbErr then
          (tfind t.poison e.line).isSome = true ∧ ∃ d, t.deferred = s.deferred ++ [d] ∧ d.sub = 0 ∧ d.slice = sl ∧ d.ctx = e.origin.ctx
        else t.deferred = s.deferred)))

/-- The gather unit's and the copy engines' steps (07 R159-R162; 03 R59; 13 R300; 14 R336): a gather writes its entries and finishes; a
copy, tile or metadata burst moves one burst of units, and the last one finishes the operation; a failure finishes it too, its progress at the
burst that failed (10 R235). -/
def Claims.GatherAndCopySteps : Prop :=
  ∀ (s : State) (op : Nat) (o : AsyncOp), findOp s op = some o →
    (∀ reqs hint slot g ws w s1 w1 es, o.kind = .gath reqs hint → o.finished = false → o.warps = (slot, g) :: ws →
      getWarp s o.core slot = some w → gatherLanes o reqs s w = some (s1, w1, es) →
      ∃ t, exec (.gatherComplete op) s = .next t ∧ getWarp t o.core slot = some w1 ∧ t.mem = s1.mem ∧
        findOp t op = some { o with finished := true, permit := .none, err := match es with
          | [] => none
          | e :: _ => some { e.2 with lanes := some (maskOf (fun l => es.any (fun x => x.1 == l))) } } ∧
        (∀ r, r ∈ reqs → deepKey r.2.1 r.1 ∉ w1.dPend) ∧
        (∀ k, (∀ r, r ∈ reqs → deepKey r.2.1 r.1 ≠ k) → tget 0 w1.d k = tget 0 w.d k ∧ (k ∈ w1.dPend ↔ k ∈ w.dPend)) ∧
        (∀ l x a v ms s2, reqs = [(l, x, a)] → gatherRead s o a = .ok (v, ms) s2 → es = [] ∧ tget 0 w1.d (deepKey x l) = v)) ∧
    (∀ s1 ev r, isBurst o = true → opRuns s o = true → permitHolds o = true → (usesTiles o = true → tilesHere s o = true) →
      runUnits (copyUnit o) (burstRange o) s [] = some (s1, ev, r) →
      let o1 := { o with events := o.events ++ ev, progress := o.progress + 1 }
      (r = none → copyTotal o > (o.progress + 1) * burstUnits o → exec (.copyBurst op) s = .next (putOp (noteCut s1 op o) op o1)) ∧
      (r = none → copyTotal o ≤ (o.progress + 1) * burstUnits o → ∃ t, exec (.copyBurst op) s = .next t ∧ Finishes t op o1 none ∧
        t.mem = s1.mem) ∧
      (∀ e, r = some e → ∃ t, exec (.copyBurst op) s = .next t ∧ Finishes t op { o with events := o.events ++ ev } (some e) ∧
        t.mem = s1.mem)) ∧
    (isBurst o = true → runUnits (copyUnit o) (burstRange o) s [] = none → exec (.copyBurst op) s = .next s)

/-- An activation table load (09 R216, R217; 13 R306): the 256 words go into the table that is not current, which becomes current; the other
table stays as it was. -/
def Claims.ActivationTables : Prop :=
  ∀ (s s1 : State) (op : Nat) (o : AsyncOp) (td : Desc) (es : List Nat), findOp s op = some o → o.kind = .actld td →
    opRuns s o = true → actldTurn s op o = true →
    engMap (fun i s => readElem s o td [i]) (List.range 256) s = .ok es s1 →
    ∃ t, exec (.actldFlip op) s = .next t ∧ Finishes t op { o with progress := 1 } none ∧ t.mem = s1.mem ∧
      (let b := (getCore s1 o.core).bank o.bank
       let b1 := (getCore t o.core).bank o.bank
       b1.actCur = !b.actCur ∧
       (∀ i, i < 256 → tget 0 (if b1.actCur then b1.act1 else b1.act0) i = BitVec.ofNat 32 (es.getD i 0)) ∧
       (if b1.actCur then b1.act0 = b.act0 else b1.act1 = b.act1))

/-- Collectives (07 R163; 11 R272; 05 R110): members that disagree, and contributions under two key generations, fail it on every member; its
first step joins, and once every member has joined each step is counted until the last, at which every contribution is read and this member
has its result, with the events of its roundings; the time-out fails it where some member has not joined. -/
def Claims.Collectives : Prop :=
  ∀ (s : State) (op : Nat) (o : AsyncOp) (c : CollOp), findOp s op = some o → collOf o = some c → opRuns s o = true →
    let n := c.g.members.length
    let ps := presentPartners s o c
    let one := fun (e : Nat) => ({ err := e, addr := 0 } : OpErr)
    let fails := fun (i : Instr) (e : Nat) => ∃ t, exec i s = .next t ∧ Finishes t op o (some (one e)) ∧
      (∀ p, p ∈ ps → Finishes t p.2.1 p.2.2 (some (one e))) ∧ t.mem = s.mem
    let agree := ∀ p x, p ∈ ps → collOf p.2.2 = some x → collAgree c x = true
    let sameKey := rotated s o c = false ∧ ∀ p x, p ∈ ps → collOf p.2.2 = some x → rotated s p.2.2 x = false ∧ x.kgen = c.kgen
    (s.ops.map (fun e => e.1)).Nodup → (op :: ps.map (fun p => p.2.1)).Nodup →
    (1 < n →
      (∀ k, fails (.collStep op false k) 9) ∧ (¬agree → ∀ k, fails (.collStep op true k) 9) ∧
      (agree → fails (.collStep op true false) 11) ∧ (agree → ¬sameKey → fails (.collStep op true true) 11) ∧
      (c.g.timeout ≠ 0 → o.joined = true → o.progress = 0 → allJoined s o c = false →
        (∀ p, p ∈ ps → p.2.2.progress = 0) → fails (.collTimeout op) 10) ∧
      (agree → sameKey → o.joined = false → ∃ t, exec (.collStep op true true) s = .next t ∧
        findOp t op = some { o with joined := true } ∧ t.mem = s.mem ∧ t.cores = s.cores) ∧
      (agree → sameKey → o.joined = true → (partners s o c).isSome = true → (∀ p, p ∈ ps → p.2.2.joined = true) →
        (o.progress + 1 < collSteps c.td c.p2 n → ∃ t, exec (.collStep op true true) s = .next t ∧
          findOp t op = some { o with progress := o.progress + 1 } ∧ t.mem = s.mem ∧ t.cores = s.cores) ∧
        (collSteps c.td c.p2 n ≤ o.progress + 1 → (∃ p, p ∈ ps ∧ (atLast p.2.2 = false ∨ opRuns s p.2.2 = false)) →
          ∃ t, exec (.collStep op true true) s = .next t ∧ findOp t op = some o ∧ t.mem = s.mem) ∧
        (∀ u, collSteps c.td c.p2 n ≤ o.progress + 1 → (∀ p, p ∈ ps → atLast p.2.2 = true ∧ opRuns s p.2.2 = true) →
          collFinish (noteCut s op o) ((op, o) :: ps.map (fun p => p.2)) = some u →
          exec (.collStep op true true) s = .next u ∧
            ∀ p, p ∈ (op, o) :: ps.map (fun p => p.2) → ∃ x, findOp u p.1 = some x ∧ x.finished = true))) ∧
    (∀ es ev s1 s2 e, localMembers s c = [] → (n ≤ 1 ∨ (sameKey ∧ o.joined = true)) → collSteps c.td c.p2 n ≤ o.progress + 1 →
      collResult (noteCut s op o) o c = .ok (es, ev) s1 → collWrites o c.td c.p1.toNat es s1 = some (s2, e) →
      ∃ t, exec (.collStep op true true) s = .next t ∧ t.mem = s2.mem ∧
        Finishes t op { o with progress := if e.isNone then o.progress + 1 else o.progress, events := o.events ++ ev } e)

/-- Reports of completions (07 R164, R167; 06 R141; 05 R111): the operation leaves the engine; the counter of each of its warps that
still holds its slot goes down, and the first failure of a class is kept for the covering wait; the failure of an operation whose warps have
exited raises the stop line. -/
def Claims.CompletionReports : Prop :=
  ∀ (s : State) (op slot g : Nat) (o : AsyncOp), findOp s op = some o → o.finished = true → o.dropped = false →
    (∀ k x, tfind s.ops k = some x → k < op → x.cls ≠ o.cls) → (s.ops.map (fun e => e.1)).Nodup → o.warps = [(slot, g)] →
    (∀ w, getWarp s o.core slot = some w → slotGen s o.core slot = g → (o.err = none ∨ liveLanes w ≠ 0) →
      ∃ t w', exec (.asyncCompletionReport op) s = .next t ∧ tfind t.ops op = none ∧ (∀ k, k ≠ op → tfind t.ops k = tfind s.ops k) ∧
        t.mem = s.mem ∧ getWarp t o.core slot = some w' ∧ w'.counts = setAt w.counts o.cls (w.counts.getD o.cls 0 - 1) ∧
        (o.err = none → w'.asyncErrs = w.asyncErrs) ∧
        (∀ e, o.err = some e → w'.asyncErrs = if w.asyncErrs.any (fun x => x.cls == o.cls) then w.asyncErrs else
          w.asyncErrs ++ [{ cls := o.cls, seq := o.issue, age := o.accept, err := e.err, addr := e.addr, ia := e.ia, lanes := e.lanes,
                              unit := opUnit o, progress := positionOf o, pos := o.pos }]) ∧
        { w' with counts := w.counts, asyncErrs := w.asyncErrs, pendThr := w.pendThr } = w ∧
        (∀ k, k ≠ slot → getWarp t o.core k = getWarp s o.core k)) ∧
    (∀ e, o.err = some e → e.ia = none → e.err < 2 ^ 16 → o.cls < 2 ^ 16 → slotGen s o.core slot ≠ g →
      ∃ t st, exec (.asyncCompletionReport op) s = .next t ∧ (getCtx t o.slice o.ctx).stop = some st ∧ t.mem = s.mem ∧
        ((getCtx s o.slice o.ctx).stop = none → st.cause = BitVec.ofNat 64 (0x27 + e.err * 2 ^ 16 + o.cls * 2 ^ 32 + 2 ^ 63)) ∧
        (∀ k, getWarp t o.core k = getWarp s o.core k))

/-- Power permits (06 R140, R436; 01 R12): a request is queued with the power it asks for; the governor grants the first request in order
that its slice's and die's shares hold, one that borrows or is too large for its share where none fits, and none at the permit-stop level or while a permit over the die's share is out; one that has waited
the limit holds back every other of its class or a lower one. -/
def Claims.PowerPermits : Prop :=
  ∀ (s : State) (op : Nat) (o : AsyncOp), findOp s op = some o →
    (o.permit = .none → needsPermit o = true → opRuns s o = true → (o.cls = 1 → inBooth s (clusterOf o.core) op = true) →
      exec (.permitRequest op) s =
        .next { putOp s op { o with permit := .queued s.nextPermit false (requestPower s op o) } with nextPermit := s.nextPermit + 1 }) ∧
    (∀ die r rest, requestsOf s die = r :: rest → r.op = op → (s.ops.map (fun e => e.1)).Nodup →
      (∀ x, x ∈ rest → x.seq ≠ r.seq ∧ (x.aged = true → r.aged = true ∨ x.prio < r.prio)) →
      exec (.permitWaitLimit die) s = .next (putOp s op { o with permit := .queued r.seq true r.power }) ∧
      (permitStopped s die = false → soleGranted s die = false → fitsOwn s die r = true →
        exec (.permitGrant die) s = .next (putOp s op { o with permit := .granted r.power (decide (dieShare s die < r.power)) })) ∧
      (permitStopped s die = false → soleGranted s die = false → (∀ x, x ∈ r :: rest → fitsOwn s die x = false) →
        fitsAlone s die r = true ∨ fitsBorrowed s die r = true →
        exec (.permitGrant die) s = .next (putOp s op { o with permit := .granted r.power (decide (dieShare s die < r.power)) })) ∧
      (permitStopped s die = true ∨ soleGranted s die = true → exec (.permitGrant die) s = .next s) ∧
      (r.aged = true → (∀ x, x ∈ r :: rest → fitsOwn s die x = false) → fitsBorrowed s die r = false →
        fitsAlone s die r = false →
        exec (.permitGrant die) s = .next s)) ∧
    (∀ die a r, a ∈ requestsOf s die → r ∈ requestsOf s die → a.aged = true → a.op ≠ r.op → r.prio ≤ a.prio →
      (r.aged = false ∨ r.before a = false) → (s.ops.map (fun e => e.1)).Nodup →
      ∃ t, exec (.permitGrant die) s = .next t ∧ findOp t r.op = findOp s r.op)

/-- The weight-load path (06 R117-R122, R138; 05 R99): a load replaces its slot's set, in macros of one bank that no other set holds and with
the residues of its cells, or leaves the slot empty with its error. -/
def Claims.WeightLoads : Prop :=
  ∀ (s : State) (op ws : Nat) (o : AsyncOp) (d : Desc) (p : DWord) (gen : Nat), findOp s op = some o → o.kind = .wload ws d p gen →
    let me := clusterOf o.core
    let r := wregion p
    let slots := fun (t : State) => (getEngine t me).slots
    opRuns s o = true → inBooth s me op = true → permitHolds o = true → (getEngine s me).passing = none → earlierOn s me op ws = [] →
    (∀ bank gs s1, chooseBank s me ws (macrosOf d r) = some bank → scalesUsed (getEngine s me) ws + scaleNeed d r ≤ 131072 →
      engMap (loadGroup o d r) (regionGroups d r) (putSet s me ws none) = .ok gs s1 →
      ∃ t x, exec (.weightLoad op) s = .next t ∧ Finishes t op o none ∧ t.mem = s1.mem ∧ tfind (slots t) ws = some x ∧
        x.slice = o.slice ∧ x.ctx = o.ctx ∧ x.gen = gen ∧ x.bank = bank ∧ x.rows = r.rows ∧ x.cols = r.cols ∧ x.fmt = descFmt d ∧
        x.weights = gs.flatMap (fun g => g.1) ∧ x.scales = gs.map (fun g => g.2) ∧ x.macros.length = macrosOf d r ∧
        (∀ m, m ∈ x.macros → m / 128 = bank ∧ ∀ k y, k ≠ ws → tfind (slots s) k = some y → m ∉ y.macros) ∧
        (∀ n q, (n, q) ∈ x.weights → if (descFmt d).formsB8
          then (2 * n, (q / 16 % 7).toNat) ∈ x.residues ∧ (2 * n + 1, (q % 16 % 7).toNat) ∈ x.residues
          else (2 * n, (q % 7).toNat) ∈ x.residues)) ∧
    ((chooseBank s me ws (macrosOf d r) = none ∨ 131072 < scalesUsed (getEngine s me) ws + scaleNeed d r) →
      ∃ t, exec (.weightLoad op) s = .next t ∧ Finishes t op o (some { err := 7, addr := 0 }) ∧ t.mem = s.mem ∧
        tfind (slots t) ws = none ∧ ∀ k, k ≠ ws → tfind (slots t) k = tfind (slots s) k) ∧
    (∀ bank e, chooseBank s me ws (macrosOf d r) = some bank → scalesUsed (getEngine s me) ws + scaleNeed d r ≤ 131072 →
      engMap (loadGroup o d r) (regionGroups d r) (putSet s me ws none) = .fails e →
      ∃ t, exec (.weightLoad op) s = .next t ∧ Finishes t op o (some e) ∧ t.mem = s.mem ∧ tfind (slots t) ws = none)

/-- Matrix passes (06 R121, R123-R128, R131, R132, R135-R138, R141; 10 R238): the engine takes the eligible entry of the highest class; a start
that fails ends the operation; at its end a pass of one output row leaves each of its elements with its update and the rest of the tiles as
they were, and a residue mismatch, of the stored residues or within the pass, fails the operation after it. -/
def Claims.MatrixPasses : Prop :=
  ∀ (s : State) (me id : Nat) (o : AsyncOp) (w : List Word) (a : Desc) (gather scatter : Option Desc) (gen : Nat) (residue : Bool),
    findOp s id = some o → o.kind = .mxissue w a gather scatter gen →
    ((getEngine s me).passing = none → (id, o) ∈ boothEntries s me → eligible s me (id, o) = true →
      (∀ e, e ∈ boothEntries s me → eligible s me e = true → e = (id, o) ∨ e.2.prio < o.prio) →
      (∀ p s1, startPass s me id o w a gather scatter gen = .ok p s1 → ∃ t, exec (.mePassStart me) s = .next t ∧
        (getEngine t me).passing = some p ∧ (getEngine t me).slots = (getEngine s1 me).slots ∧ t.mem = s1.mem ∧ t.cores = s1.cores) ∧
      (∀ e, startPass s me id o w a gather scatter gen = .fails e → ∃ t, exec (.mePassStart me) s = .next t ∧
        Finishes t id o (some e) ∧ t.mem = s.mem)) ∧
    (∀ x m row xs, (getEngine s me).passing = some { op := id, rows := [(row, xs)], sparse := m } →
      tfind (getEngine s me).slots (blockWord w 2) = some x →
      let p := passAt w x.fmt.formsB8 o.progress
      let team := getTeam s o.core o.team
      let started := if p.block = 0 ∧ p.row = 0 then [] else o.started
      let fresh := bitOf (blockWord w 0) 8 = false ∧ p.block = 0 ∧ row ∉ started
      let key := fun j => elemKey w row (p.col + j)
      ((fresh ∨ ∀ j, j < p.cols → key j ∉ team.accPoison) →
        ∃ t, exec (.mePassEnd me residue) s = .next t ∧ (getEngine t me).passing = none ∧ t.mem = s.mem ∧
          (∀ j, j < p.cols → key j ∉ (getTeam t o.core o.team).accPoison ∧
            tget 0 (getTeam t o.core o.team).acc (key j) = BitVec.ofNat 32
              (let c := if fresh then 0 else (tget 0 team.acc (key j)).toNat
               if bitOf (blockWord w 0) 6 then scalarUpdate x w (aFormat (bits (blockWord w 0) 5 4)) p xs (p.col + j) c
               else blockUpdate x w m p (alignRow (aFormat (bits (blockWord w 0) 5 4)) p xs) (p.col + j) c)) ∧
          (∀ k, (∀ j, j < p.cols → key j ≠ k) → tget 0 (getTeam t o.core o.team).acc k = tget 0 team.acc k ∧
            (k ∈ (getTeam t o.core o.team).accPoison ↔ k ∈ team.accPoison)) ∧
          (residue = false → rowMismatch x w m p (row, xs) = false → ∃ o', findOp t id = some o' ∧ o'.progress = o.progress + 1 ∧
            o'.finished = (o.finished || decide (passTotal w x.fmt.formsB8 ≤ o.progress + 1))) ∧
          (residue = true ∨ rowMismatch x w m p (row, xs) = true → ∃ o', findOp t id = some o' ∧ o'.finished = true ∧ o'.err = some { err := 8, addr := 0 } ∧ 6 ∈ o'.events ∧
            o'.progress = o.progress ∧ o'.permit = .none)) ∧
      (¬fresh → (∃ j, j < p.cols ∧ key j ∈ team.accPoison) → ∃ t, exec (.mePassEnd me residue) s = .next t ∧
        (getEngine t me).passing = none ∧ Finishes t id o (some { err := 12, addr := 0 }) ∧ t.mem = s.mem)) ∧
    ((getEngine s me).passing = none → exec (.mePassEnd me residue) s = .next s)

/-- The residue checker (05 R99; 06 R127): where every stored weight has the residues of its cells, no sum of products is found wrong. -/
def Claims.ResidueChecks : Prop :=
  ∀ (x : WeightSet) (col : Nat) (ps : List (Nat × Int)),
    (∀ p, p ∈ ps → residueAt x p.1 col % 7 = (weightAt x p.1 col % 7).toNat) → residueFails x col ps = false

/-- Stops (10 R231-R236): a unit of a context that has stopped leaves the stop's list, with its record in the next slot of the sump; the
last one closes the stop: status 3 goes to the launch records of the context's grids, behind a status 6 still to be written, the
context-stopped vector is raised, and the context is stopped. A core's warps lose their unretired instructions. -/
def Claims.UnitsStop : Prop :=
  ∀ (s : State) (sl ctx : Nat) (u : EngineRef) (st : Stop), (getCtx s sl ctx).stop = some st → s.powerLatch = false → st.closed = false →
    u ∈ st.units →
    let x := getCtx s sl ctx
    let left := st.units.filter (· ≠ u)
    let closed := fun (t : State) (state : Nat) =>
      (getCtx t sl ctx).stop = some { st with units := [], ended := st.ended ++ [u], closed := true } ∧ EventSeen t sl 1 ∧
        (getCtx t sl ctx).state = (if state = 1 ∨ state = 2 then 3 else state)
    let stopsNow := fun (t : State) =>
      (left ≠ [] → (getCtx t sl ctx).state = x.state ∧ (getCtx t sl ctx).stop = some { st with units := left, ended := st.ended ++ [u] }) ∧
      (left = [] → closed t x.state)
    let threes := fun (t : State) => (gridsOf t sl ctx).foldlM (fun r g => match g.2.record, findHeld r sl g.2.mbox g.2.seq with
      | some h, _ => postMoved r sl h 3 0 false
      | none, some h => (if h.done then completeHeld r sl g.2.mbox h else some r).bind (fun r1 => postStatus r1 sl g.2.mbox h 3 0 false)
      | none, none => some r) t
    (∀ s1, gathersLeft s sl ctx u = false → unitRecords (endCut s u (cutPass s sl ctx u)) sl ctx u (cutPass s sl ctx u) = some s1 →
      (getCtx s1 sl ctx).stop = some st →
      let s2 := unitStopped s1 sl ctx u
      (left ≠ [] → exec (.engineStop sl ctx u) s = .next s2) ∧
      (left = [] → (threes s2 = none → exec (.engineStop sl ctx u) s = .next s) ∧
        ∀ s3, threes s2 = some s3 → ∃ t, exec (.engineStop sl ctx u) s = .next t ∧ closed t (getCtx s3 sl ctx).state ∧ t.mem = s3.mem ∧
          t.cores = s3.cores ∧ t.ops = s3.ops)) ∧
    ((left = [] → gridsOf s sl ctx = []) → (∀ n, (u = .copy n ∨ u = .coll n) → unitOps s sl ctx u = [] → surfacedErr s sl ctx u = none → ∃ t, exec (.engineStop sl ctx u) s = .next t ∧ stopsNow t ∧
      t.mem = s.mem ∧ t.cores = s.cores ∧ (getCtx t sl ctx).nextSump = x.nextSump)) ∧
    (∀ n slot w k s2, u = .core n → gathersLeft s sl ctx u = false → failedGather s n sl ctx = none →
      firstFaulted s n sl ctx = some (slot, w) → x.nextSump < 256 → (left = [] → gridsOf s sl ctx = []) →
      translate2 (putCtx s sl ctx { x with nextSump := x.nextSump + 1 }) (ringUnit sl) sl (x.saveBase.toNat + x.nextSump * 128) .write =
        .ok (k, s2) → isPoisoned s2 k = false → reach s2 sl k = .ok → (left = [] → gridsOf s2 sl ctx = []) →
      (getCtx s2 sl ctx) = { x with nextSump := x.nextSump + 1 } → k % 128 = 0 →
      ∃ t, exec (.engineStop sl ctx u) s = .next t ∧ stopsNow t ∧ (getCtx t sl ctx).nextSump = x.nextSump + 1 ∧
        mreadN t.mem k 8 = natBytes 8 (n * 2 ^ 16 + ctx * 2 ^ 32 + x.nextSump * 2 ^ 48) ∧
        mreadN t.mem (k + 0x08) 8 = natBytes 8 st.cause.toNat ∧ mreadN t.mem (k + 0x10) 8 = natBytes 8 w.trapCause.toNat ∧
        mreadN t.mem (k + 0x18) 8 = natBytes 8 w.trapPc.toNat ∧ mreadN t.mem (k + 0x20) 8 = natBytes 8 w.trapLanes.toNat ∧
        mreadN t.mem (k + 0x28) 8 = natBytes 8 w.trapAddr.toNat ∧ mreadN t.mem (k + 0x30) 16 = natBytes 16 0 ∧
        mreadN t.mem (k + 0x50) 8 = natBytes 8 (ocntOf w).toNat ∧ mreadN t.mem (k + 0x58) 40 = natBytes 40 0 ∧
        (∀ m x', getWarp s2 n m = some x' → x'.slice = sl → x'.ctx = ctx → x'.faulted = false →
          getWarp t n m = some { x' with dispatch := none, checked := false, bound := [] }) ∧
        (∀ a, a < k ∨ k + 128 ≤ a → mread t.mem a = mread (flushLine s2 sl k).mem a))

/-- Deferred errors (03 R51; 10 R230, R233, R234; 11 R256, R261): the oldest is recorded first, in the next slot of its context's sump, with
the origin record of what was refused, and the context's stop line is up, or was, with that cause if none came before; that of a context that no longer exists is told to the
VF, which keeps the first 16; one that finds the sump full is counted as lost, and raises the vector of a closed stop again. -/
def Claims.DeferredErrors : Prop :=
  ∀ (s : State) (d : Deferred) (rest : List Deferred), s.deferred = d :: rest → s.powerLatch = false →
    ((getCtx s d.slice d.ctx).state = 0 → ∃ t, exec .deferredError s = .next t ∧ t.deferred = rest ∧ t.mem = s.mem ∧
      t.cores = s.cores ∧ EventSeen t d.slice 9 ∧
      (getSlice t d.slice).deforig = (if (getSlice s d.slice).deforig.length < 16 then (getSlice s d.slice).deforig ++ [d.record]
        else (getSlice s d.slice).deforig) ∧ getCtx t d.slice d.ctx = getCtx s d.slice d.ctx) ∧
    (∀ st, (getCtx s d.slice d.ctx).state ≠ 0 → (getCtx s d.slice d.ctx).stop = some st → st.closed = true →
      256 ≤ (getCtx s d.slice d.ctx).nextSump → ∃ t, exec .deferredError s = .next t ∧ t.deferred = rest ∧ t.mem = s.mem ∧
      EventSeen t d.slice 1 ∧ getCtx t d.slice d.ctx =
        { getCtx s d.slice d.ctx with lostRec := min 0xFFFF ((getCtx s d.slice d.ctx).lostRec + 1) }) ∧
    (∀ k s2, (getCtx s d.slice d.ctx).state ≠ 0 → (getCtx s d.slice d.ctx).nextSump < 256 →
      let x := getCtx s d.slice d.ctx
      let own := BitVec.ofNat 64 (0x2A + d.sub % 2 ^ 16 * 2 ^ 16 + 2 ^ 63)
      let st := x.stop.getD { cause := own, units := servingUnits s d.slice d.ctx, closed := false }
      let x1 := { x with nextSump := x.nextSump + 1, stop := some st }
      translate2 (putCtx { s with deferred := rest } d.slice d.ctx x1) (ringUnit d.slice) d.slice (x.saveBase.toNat + x.nextSump * 128)
        .write = .ok (k, s2) → isPoisoned s2 k = false → reach s2 d.slice k = .ok → k % 128 = 0 → getCtx s2 d.slice d.ctx = x1 →
      (x.stop ≠ none ∨ st.units ≠ [] ∨ gridsOf s d.slice d.ctx = []) → gridsOf s2 d.slice d.ctx = gridsOf s d.slice d.ctx →
      ∃ t, exec .deferredError s = .next t ∧ t.deferred = s2.deferred ∧ t.cores = s2.cores ∧ t.ops = s2.ops ∧
        mreadN t.mem k 8 = natBytes 8 (4 + d.ctx * 2 ^ 32 + x.nextSump * 2 ^ 48) ∧
        mreadN t.mem (k + 0x08) 8 = natBytes 8 st.cause.toNat ∧ mreadN t.mem (k + 0x10) 8 = natBytes 8 own.toNat ∧
        mreadN t.mem (k + 0x18) 24 = natBytes 24 0 ∧ mreadN t.mem (k + 0x30) 16 = natBytes 16 d.record.toNat ∧
        mreadN t.mem (k + 0x40) 64 = natBytes 64 0 ∧
        (∀ a, a < k ∨ k + 128 ≤ a → mread t.mem a = mread (flushLine s2 d.slice k).mem a) ∧
        ((x.stop ≠ none ∨ st.units ≠ []) → getCtx t d.slice d.ctx = x1 ∧ (st.closed = true → EventSeen t d.slice 1)) ∧
        (x.stop = none → st.units = [] → EventSeen t d.slice 1 ∧ getCtx t d.slice d.ctx = { x1 with
          stop := some { st with closed := true }, state := if x.state = 1 ∨ x.state = 2 then 3 else x.state }))

/-- Per-core resets (10 R239; 11 R260): the core's stores reach home, then its SRAM is zero, it is unowned and its operations are gone; the
VF is told. Other cores run on. A core outside the slice is ignored. -/
def Claims.CoreResets : Prop :=
  ∀ (s s1 : State) (slice : Nat) (value : DWord),
    let core := value.toNat % 128
    (sliceOfCore s core = some slice → drainAll s core = some s1 → (∀ c, (getCtx s1 slice c).stop = none) →
      ∀ i, ((i = .coreReset slice value ∧ accepts s = true ∧ value.getLsbD 7 = true) ∨ i = .coreControlError core) →
        ∃ t, exec i s = .next t ∧ getCore t core = {} ∧ (∀ n, n ≠ core → getCore t n = getCore s1 n) ∧ t.mem = s1.mem ∧
          (∀ id o, tfind t.ops id = some o → o.core ≠ core) ∧ (∀ e, e ∈ t.tlb → e.unit ≠ core ∧ e.unit ≠ fetchUnit core) ∧ EventSeen t slice 3 ∧
          (∀ n, n ≠ slice → (∀ m, m ∈ (getCore s1 core).teams → m.2.slice ≠ n) → getSlice t n = getSlice s1 n)) ∧
    ((accepts s = false ∨ value.getLsbD 7 = false ∨ sliceOfCore s core ≠ some slice) → exec (.coreReset slice value) s = .next s) ∧
    (∀ n, sliceOfCore s n = none → exec (.coreControlError n) s = .next s)

/-- Quiesces (10 R242, R247; 11 R264): the command's states; the trap for each warp of a core once its passes stand still; the end of the
budget, which counts as completion. -/
def Claims.Quiesces : Prop :=
  ∀ (s : State) (sl ctx : Nat),
    let x := getCtx s sl ctx
    (accepts s = true → (x.state = 1 ∨ x.state = 2 ∨ x.state = 3) → ∃ t, exec (.quiesce sl ctx) s = .next t ∧
      (getCtx t sl ctx) = { x with state := 4, quiesce := some { delivered := [], expired := decide (x.state = 3) } } ∧
      (getSlice t sl).slcmd = BitVec.ofNat 64 (1 + ctx % 16 * 2 ^ 8) ∧ (getSlice t sl).slstat = 1 ∧ t.cores = s.cores ∧ t.mem = s.mem ∧
      ∀ id o, tfind s.ops id = some o → tfind t.ops id = some (if o.slice = sl ∧ o.ctx = ctx ∧ o.cls = 1 ∧ o.finished = false then
        { o with suspended := true, permit := .none } else o)) ∧
    (accepts s = true → x.state ≠ 1 → x.state ≠ 2 → x.state ≠ 3 → exec (.quiesce sl ctx) s = .next (setCommand s sl 1 ctx 2)) ∧
    (∀ q core, x.quiesce = some q → s.powerLatch = false → x.state = 4 → q.expired = false → x.stop = none → core ∉ q.delivered →
      passOf s sl ctx (fun o => o.core == core) = false → sliceOfCore s core = some sl →
      ∃ t, exec (.quiesceTrapDelivery sl ctx core) s = .next t ∧ getCtx t sl ctx = { x with quiesce := some { q with delivered := q.delivered ++ [core] } } ∧
        (∀ k w, getWarp s core k = some w →
          getWarp t core k = some (if w.slice = sl ∧ w.ctx = ctx then { w with qpend := true } else w)) ∧
        (∀ n, n ≠ core → getCore t n = getCore s n) ∧ { t with cores := s.cores, slices := s.slices } = s) ∧
    (∀ q, x.quiesce = some q → s.powerLatch = false → x.state = 4 → exec (.quiesceBudgetExpire sl ctx) s =
      exec (.quiesceComplete sl ctx) (putCtx s sl ctx { x with quiesce := some { q with expired := true } })) ∧
    (∀ q, x.quiesce = some q → (x.state ≠ 4 ∨ stopRuns x = true ∨ enginesStand s sl ctx = false ∨
      (q.expired = false ∧ x.stop = none ∧ quiesceDone s sl ctx q = false)) → exec (.quiesceComplete sl ctx) s = .next s)

/-- Forced saves (10 R243, R244; 11 R263): once the quiesce is complete, and the save area has room for the image, the slice's
retired stores reach their homes and the context is saved with its teams, operations and settings in the image, the area after the sump
written, and nothing of it left on cores or in engines. With too little room, or where the area cannot be written (log 124), it is left
stopped where it stands; while a port does not answer, nothing happens yet. -/
def Claims.ForcedSaves : Prop :=
  ∀ (s : State) (sl ctx : Nat) (q : Quiesce),
    let x := getCtx s sl ctx
    x.quiesce = some q → s.powerLatch = false → x.state = 4 → stopRuns x = false → enginesStand s sl ctx = true →
    (q.expired = true ∨ x.stop ≠ none ∨ quiesceDone s sl ctx q = true) →
    let s0 := (coresOf s sl).foldl (declineExited sl ctx) s
    let drained := (drainCores (coresOf s0 sl) s0).bind (fun s1 => flushSlice s1 sl)
    let size := 32768 + imageBytes (imageOf s0 sl ctx)
    let stays := fun (t : State) => getCtx t sl ctx = { x with state := 3, quiesce := none } ∧ (getSlice t sl).slstat = 3 ∧ t.mem = s.mem ∧
      (∀ n k w, getWarp s n k = some w → ∃ w', getWarp t n k = some w' ∧ { w' with qpend := w.qpend } = w)
    (size ≤ x.saveSize.toNat → (drained = none → exec (.quiesceComplete sl ctx) s = .next s) ∧
      ∀ s1, drained = some s1 →
        let s2 := modMarks (awayMark sl ctx) s1
        let i := imageOf s2 sl ctx
        match writeArea (clearContext s2 sl ctx) sl ctx (imageBytes i) with
        | .error .waits => exec (.quiesceComplete sl ctx) s = .next s
        | .error _ => ∃ t, exec (.quiesceComplete sl ctx) s = .next t ∧ stays t
        | .ok s3 => ∃ t, exec (.quiesceComplete sl ctx) s = .next t ∧
          getCtx t sl ctx = { x with state := 5, quiesce := none, image := some i } ∧ (getSlice t sl).slstat = 0 ∧ EventSeen t sl 8 ∧
          (∀ n, n ∈ coresOf s sl → ctxTeams t n sl ctx = []) ∧ (∀ e, e ∈ t.ops → ¬(e.2.slice = sl ∧ e.2.ctx = ctx)) ∧
          (∀ n, n ∉ coresOf s sl → getCore t n = getCore s2 n) ∧
          t.mem = s3.mem ∧ i.exc = ctxCounts s2 sl ctx ∧ i.cores = coresOf s sl ∧
          i.table = x.td ∧ i.thr = x.thr ∧ i.win = x.win ∧ i.act = x.act ∧ i.teams = savedTeams s2 sl ctx ∧
          (∀ o, o ∈ i.ops → o.suspended = true ∧ o.permit = .none ∧ o.slice = sl ∧ o.ctx = ctx)) ∧
    (x.saveSize.toNat < size → ∃ t, exec (.quiesceComplete sl ctx) s = .next t ∧ stays t)

/-- Resumes and the end of a context (05 R116; 10 R231, R232, R243; 11 R261, R264, R266): a stopped or paused context runs on in place, with
no warp faulted or held and no instruction of before dispatched, one paused while it quiesced among them (log 125); a saved one takes its
image back, its operations numbered anew in their order and its counts on cores that it left; a dropped one is absent, with its entry's own registers kept. -/
def Claims.ResumesAndDrops : Prop :=
  ∀ (s : State) (sl ctx : Nat), accepts s = true →
    let x := getCtx s sl ctx
    let runs := fun (t : State) => (getCtx t sl ctx).state = (if gridsOf s sl ctx = [] then 1 else 2) ∧ (getCtx t sl ctx).stop = none ∧
      (getCtx t sl ctx).nextSump = 0 ∧ (getCtx t sl ctx).lostRec = 0 ∧ (getSlice t sl).slstat = 0
    let stands := x.state = 3 ∨ (x.state = 8 ∧ (x.paused = 1 ∨ x.paused = 2 ∨ x.paused = 3 ∨ x.paused = 4))
    let saved := x.state = 5 ∨ (x.state = 8 ∧ x.paused = 5)
    (stands → ∃ t, exec (.resume sl ctx) s = .next t ∧ runs t ∧ t.mem = s.mem ∧
      (∀ n k w, n ∈ coresOf s sl → getWarp s n k = some w → getWarp t n k = some (if w.slice = sl ∧ w.ctx = ctx then
        { w with faulted := false, concerned := none, dispatch := none, checked := false, bound := [], held := false,
                 qpend := w.qpend && !(decide (x.state = 8) && decide (x.paused = 4)), inQuiesce := false, tm := w.tm && !w.held,
                 handlers := if w.held then 0 else w.handlers, path := if w.held then 0 else w.path,
                 pathRet := if w.held then 0 else w.pathRet }
        else w)) ∧ (∀ n, n ∉ coresOf s sl → getCore t n = getCore s n) ∧
      (∀ id o, tfind s.ops id = some o → tfind t.ops id = some (if o.slice = sl ∧ o.ctx = ctx ∧ tilesHere s o = true then
        { o with suspended := false } else o))) ∧
    (∀ i, saved → x.image = some i → canResume s sl ctx i = true → ∃ t, exec (.resume sl ctx) s = .next t ∧ runs t ∧
      t.mem = s.mem ∧ t.nextOp = s.nextOp + i.ops.length ∧
      (i.teams ≠ [] → i.cores ≠ coresOf s sl → t.cores = s.cores) ∧
      (i.teams ≠ [] → i.cores = coresOf s sl → (∀ n, { getCore t n with exc := (getCore s n).exc } = getCore s n) ∧
        ((i.exc.map (fun e => (e.1, e.2.1))).Nodup → ∀ e, e ∈ i.exc → tfind (getCore t e.1).exc (ctx * 8 + e.2.1) = some e.2.2)) ∧
      (i.teams ≠ [] → ∃ j, (getCtx t sl ctx).image = some j ∧ j.teams = i.teams ∧ j.ops.length = i.ops.length ∧
        ∀ n (o : AsyncOp), i.ops[n]? = some o → j.ops[n]? = some { o with accept := s.nextOp + n }) ∧
      (i.teams = [] → (getCtx t sl ctx).image = none)) ∧
    (∀ i, saved → x.image = some i → canResume s sl ctx i = false → exec (.resume sl ctx) s = .next (setCommand s sl 6 ctx 3)) ∧
    (¬stands → ¬saved → exec (.resume sl ctx) s = .next (setCommand s sl 6 ctx 2)) ∧
    ((x.state = 3 ∨ x.state = 5 ∨ x.state = 6) → ∃ t, exec (.dropCtx sl ctx) s = .next t ∧
      getCtx t sl ctx = { saveBase := x.saveBase, saveSize := x.saveSize, s1root := x.s1root } ∧ (getSlice t sl).slstat = 0 ∧
      gridsOf t sl ctx = [] ∧ (∀ e, e ∈ t.ops → ¬(e.2.slice = sl ∧ e.2.ctx = ctx)) ∧ (∀ n, n ∈ coresOf s sl → ctxTeams t n sl ctx = []) ∧
      (∀ e, e ∈ t.tlb ↔ e ∈ s.tlb ∧ ¬(e.slice = sl ∧ e.stage2 = false ∧ e.ctx = ctx)) ∧ t.mem = s.mem) ∧
    (x.state ≠ 3 → x.state ≠ 5 → x.state ≠ 6 → exec (.dropCtx sl ctx) s = .next (setCommand s sl 7 ctx 2))

/-- Migration commands (10 R244; 11 R263-R265): a saved context is exported sealed, with the stop records that its save area holds and each
grid's launch record, an absent one made from an image that the key opens, with the image in its save area and its grids on the slice under
new numbers, and pages go out and come back sealed. Without a key, or where what they read or write fails, they fail; from another state or
for another context they are refused; and one whose port does not answer runs on: an import in state 7. -/
def Claims.MigrationCommands : Prop :=
  ∀ (s : State) (sl ctx : Nat), accepts s = true →
    let x := getCtx s sl ctx
    let y := getSlice s sl
    let s7 := setCommand (putCtx s sl ctx { getCtx s sl ctx with state := 7 }) sl 4 ctx 1
    let turnedAway := fun (st : Nat) => ∃ t, exec (.importCtx sl ctx) s = .next t ∧ getCtx t sl ctx = x ∧ (getSlice t sl).slstat = st ∧
      (getSlice t sl).slcmd = BitVec.ofNat 64 (4 + ctx % 16 * 2 ^ 8) ∧ t.mem = s.mem ∧ t.cores = s.cores ∧
      (getSlice t sl).grids = (getSlice s sl).grids
    let ends := fun (t : State) (cmd : Nat) => (getSlice t sl).slcmd = BitVec.ofNat 64 (cmd + ctx % 16 * 2 ^ 8) ∧
      (getSlice t sl).slstat = 0 ∧ EventSeen t sl 8
    let fails := fun (i : Instr) (cmd : Nat) (e : TrErr) => exec i s = .next (match e with
      | .waits => setCommand s sl cmd ctx 1
      | .poison _ | .fail _ _ _ => setCommand (tellTr s sl e) sl cmd ctx 3)
    (x.state ≠ 5 → exec (.exportCtx sl ctx) s = .next (setCommand s sl 2 ctx 2)) ∧
    (x.state = 0 → exec (.pagex sl ctx) s = .next (setCommand s sl 3 ctx 2)) ∧
    (x.state ≠ 0 → exec (.importCtx sl ctx) s = .next (setCommand s sl 4 ctx 2)) ∧
    (x.state ≠ 5 → x.state ≠ 7 → exec (.pagei sl ctx) s = .next (setCommand s sl 5 ctx 2)) ∧
    (y.migKey = none →
      (x.state = 5 → exec (.exportCtx sl ctx) s = .next (setCommand s sl 2 ctx 3) ∧ exec (.pagei sl ctx) s = .next (setCommand s sl 5 ctx 3)) ∧
      (x.state ≠ 0 → exec (.pagex sl ctx) s = .next (setCommand s sl 3 ctx 3)) ∧
      (x.state = 0 → turnedAway 3)) ∧
    (∀ k, y.migKey = some k →
      (x.state = 5 → (k.srcPkg ≠ s.pkgid ∨ k.srcSlice ≠ sl) → exec (.exportCtx sl ctx) s = .next (setCommand s sl 2 ctx 3)) ∧
      (∀ i, x.state = 5 → k.srcPkg = s.pkgid → k.srcSlice = sl → x.image = some i →
        match linesRead sl x.saveBase.toNat (savedLines i) s with
        | .error e => fails (.exportCtx sl ctx) 2 e
        | .ok (area, s1) =>
          let j := { i with sump := area.take 32768, records := x.nextSump, lost := x.lostRec, table := x.td, thr := x.thr, win := x.win,
                            act := x.act, spawnt := x.spawnt,
                            grids := (gridsOf s sl ctx).map (fun g => (g.1, { g.2 with record := match g.2.record with
                              | some h => some h
                              | none => findHeld s sl g.2.mbox g.2.seq })) }
          match sealAt s1 sl y.expbase.toNat { key := k, pkg := s.pkgid, slice := sl, ctx := ctx, ia := 0, image := some j, page := [] } with
          | .error e => fails (.exportCtx sl ctx) 2 e
          | .ok (_, s2) => ∃ t, exec (.exportCtx sl ctx) s = .next t ∧ ends t 2 ∧ (getCtx t sl ctx).state = 6 ∧ t.mem = s2.mem ∧
            t.sealedData = s2.sealedData) ∧
      (x.state ≠ 0 → match pageList s sl with
        | .error e => fails (.pagex sl ctx) 3 e
        | .ok (ps, s1) => match sealPages sl ctx k ps (y.expbase.toNat + 8 * ps.length) s1 with
          | .error e => fails (.pagex sl ctx) 3 e
          | .ok s2 => ∃ t, exec (.pagex sl ctx) s = .next t ∧ ends t 3 ∧ t.mem = s2.mem ∧ t.sealedData = s2.sealedData ∧
            (getCtx t sl ctx).state = (getCtx s2 sl ctx).state) ∧
      (x.state = 0 → match olsanRead s7 sl y.expbase.toNat 1 with
        | .error .waits => exec (.importCtx sl ctx) s = .next s7
        | .error _ => turnedAway 3
        | .ok _ => match (openSealed s7 sl y.expbase.toNat k).bind (fun e => e.2.image.map (fun i => (e.2.ctx, i))) with
          | none => turnedAway 3
          | some (c, i) => (c ≠ ctx → turnedAway 2) ∧ (c = ctx → match placeImage s7 sl ctx i with
            | .error .waits => exec (.importCtx sl ctx) s = .next s7
            | .error _ => turnedAway 3
            | .ok s1 => ∃ t j, exec (.importCtx sl ctx) s = .next t ∧ ends t 4 ∧ (getCtx t sl ctx).state = 5 ∧
              (getCtx t sl ctx).td = i.table ∧ (getCtx t sl ctx).thr = i.thr ∧ (getCtx t sl ctx).win = i.win ∧
              (getCtx t sl ctx).act = i.act ∧ (getCtx t sl ctx).nextSump = i.records ∧ (getCtx t sl ctx).lostRec = i.lost ∧
              (getCtx t sl ctx).image = some j ∧ j.teams.length = i.teams.length ∧ j.ops.length = i.ops.length ∧
              (∀ o, o ∈ j.ops → o.slice = sl ∧ o.ctx = ctx) ∧ t.mem = s1.mem ∧
              ∀ n g, i.grids[n]? = some g →
                tfind (getSlice t sl).grids (y.nextGrid + n) = some { g.2 with ctx := ctx, mbox := 64, seq := 0 })) ∧
      ((x.state = 5 ∨ x.state = 7) → match pageList s sl with
        | .error e => fails (.pagei sl ctx) 5 e
        | .ok (ps, s1) => match openPages s1 sl k ps (y.expbase.toNat + 8 * ps.length) with
          | none => (match behindList s1 sl ps.length with
            | .error e => fails (.pagei sl ctx) 5 e
            | .ok _ => exec (.pagei sl ctx) s = .next (setCommand s sl 5 ctx 3))
          | some r => match writePages sl r s1 with
            | .error e => fails (.pagei sl ctx) 5 e
            | .ok s2 => ∃ t, exec (.pagei sl ctx) s = .next t ∧ ends t 5 ∧ t.mem = s2.mem))

/-- Slice resets (11 R255, R269, R270): nothing of the slice is left on its cores, in its stacks, its ways or its tables, its interface
is in ERROR, vector 63 is raised, no entry of the translation cache is visible to it, and other slices keep everything. A function-level reset of the VF does the same; that of PF0 takes its error
reports and its waiting message alone, not those of its VFs. -/
def Claims.SliceResets : Prop :=
  ∀ (s : State) (sl : Nat), accepts s = true →
    (vfEnabled s sl = true → ∀ i, (i = .sliceReset sl ∨ i = .flrVf sl) → ∃ t, exec i s = .next t ∧
      (∀ n, n ∈ coresOf s sl → getCore t n = {}) ∧ (∀ n, n ∉ coresOf s sl → n < 128 → getCore t n = getCore s n) ∧
      (∀ a, a / 2 ^ 36 ∈ granulesOf s sl → mread t.mem a = 0) ∧
      (∀ a, a / 2 ^ 36 ∉ granulesOf s sl → (isHost a = false ∨ ∀ e, e ∈ s.xentries → e.visible.getLsbD sl = false) →
        mread t.mem a = mread s.mem a) ∧ (∀ e, e ∈ t.xentries → e.visible.getLsbD sl = false) ∧ (∀ k x, tfind t.l2 k = some x → k % 128 ≠ sl) ∧
      (∀ c, getCtx t sl c = {}) ∧ (∀ m, getMbox t sl m = {}) ∧ (getSlice t sl).grids = [] ∧ (getSlice t sl).routing = [] ∧
      (getSlice t sl).tdi = .error ∧ (getSlice t sl).everLocked = false ∧ (getSlice t sl).resets = (getSlice s sl).resets + 1 ∧
      EventSeen t sl 0 ∧ (∀ n, n ≠ sl → getSlice t n = getSlice s n) ∧ (∀ e, e ∈ t.tlb ↔ e ∈ s.tlb ∧ e.slice ≠ sl ∧ ¬(e.slice = 17 ∧ e.ctx = sl)) ∧
      (getSlice t sl).slstat = (if i = .sliceReset sl then 0 else if (getSlice s sl).slstat = 1 then 3 else (getSlice s sl).slstat)) ∧
    (vfEnabled s sl = false → exec (.sliceReset sl) s = .next s ∧ exec (.flrVf sl) s = .next s) ∧
    (∀ p, exec (.flrPf0 p) s =
      .next { s with aer := s.aer.filter (fun e => e.port != some p || e.slice.isSome), msix0Waiting := s.msix0Waiting.filter (· != p) })

/-- A slice's context table, invalidations and event queue (07 R171; 11 R256, R260, R261, R263): what each register write does. -/
def Claims.SliceRegisters : Prop :=
  ∀ (s : State) (sl ctx : Nat) (v : DWord), accepts s = true →
    let y := getSlice s sl
    let x := getCtx s sl ctx
    let gone := fun (t : State) (p : TlbEntry → Prop) => ∀ e, e ∈ t.tlb ↔ e ∈ s.tlb ∧ ¬p e
    exec (.s2Invalidation sl) s = .next (putSlice s sl { y with s2busy := true }) ∧
    (y.s2busy = true → ∃ t, exec (.invalidationComplete sl true) s = .next t ∧ (getSlice t sl).s2busy = false ∧
      gone t (fun e => e.slice = sl ∧ e.stage2 = true) ∧ t.mem = s.mem) ∧
    (∀ c, y.s1inv = some c → ∃ t, exec (.invalidationComplete sl false) s = .next t ∧ (getSlice t sl).s1inv = none ∧
      gone t (fun e => e.slice = sl ∧ e.stage2 = false ∧ e.ctx = c) ∧ t.mem = s.mem) ∧
    (vfEnabled s sl = true →
      (∃ t, exec (.s1Invalidation sl v) s = .next t ∧
        (y.s1inv = none → (getSlice t sl).s1inv = (if v.getLsbD 0 then some (v.toNat / 2 ^ 16 % 16) else none) ∧
          (getSlice t sl).s1sel = v.toNat / 2 ^ 16 % 16) ∧ (y.s1inv ≠ none → t = s) ∧ t.tlb = s.tlb) ∧
      (x.state = 0 → ctx < 16 → exec (.contextCreate sl ctx) s = .next (putCtx s sl ctx
        { state := 1, saveBase := x.saveBase, saveSize := x.saveSize, s1root := x.s1root })) ∧
      (x.state ≠ 0 → exec (.contextCreate sl ctx) s = .next s) ∧
      ((x.state = 1 ∨ x.state = 3) → ∃ t, exec (.contextRemove sl ctx) s = .next t ∧
        getCtx t sl ctx = { saveBase := x.saveBase, saveSize := x.saveSize, s1root := x.s1root } ∧ t.mem = s.mem) ∧
      (x.state ≠ 1 → x.state ≠ 3 → exec (.contextRemove sl ctx) s = .next s) ∧
      exec (.evtailWrite sl v) s = .next (if (y.evhead - v).toNat ≤ 64 then putSlice s sl { y with evtail := v } else s) ∧
      (∃ t, exec (.evstatWrite sl v) s = .next t ∧ t.mem = s.mem ∧
        (getSlice t sl).deforig = (if v.getLsbD 9 then y.deforig.drop 1 else y.deforig) ∧
        ∀ b, b < 16 → (getSlice t sl).evstat.getLsbD b =
          ((y.evstat.getLsbD b && !v.getLsbD b) || (decide (b = 9) && !(getSlice t sl).deforig.isEmpty)))) ∧
    (vfEnabled s sl = false → exec (.evtailWrite sl v) s = .next s ∧ exec (.evstatWrite sl v) s = .next s ∧
      exec (.contextCreate sl ctx) s = .next s ∧ exec (.contextRemove sl ctx) s = .next s ∧ exec (.s1Invalidation sl v) s = .next s)

/-- Mailboxes (09 R195-R197, R203, R219; 11 R268): enabling with its checks, disabling, and the fetch sequence of a kick: records are
accepted while seals match, a mismatch is retried, the sixty-fourth retry sets KAHEAD, and a sequence pauses while 16 records are held.
As ENABLE clears, a record that waits for its conditions or its context completes with status 4, a launch that has started among them, and
launches whose grids have stopped keep later records waiting no longer. -/
def Claims.MailboxFetches : Prop :=
  ∀ (s : State) (sl m : Nat) (v : DWord),
    let b := getMbox s sl m
    let b1 := { b with defctx := v.toNat / 2 ^ 32 % 2 ^ 16, prio := v.toNat / 2 ^ 29 % 4, weight := v.toNat / 2 ^ 16 % 2 ^ 8,
                       layout := v.toNat % 16 }
    let off := { b with enable := false, fetch := none, paused := false }
    let cleared := getMbox (releaseStopped (putMbox s sl m off) sl m) sl m
    let waiting := fun (h : Held) => activeRecord s sl m 1 = some h ∨
      (activeRecord s sl m 1 = none ∧ activeRecord s sl m 0 = some h ∧ mayStart s sl h = false)
    let valid := 4 ≤ b.size ∧ b.size ≤ 16 ∧ (b1.layout = 2 ∨ b1.layout = 3) ∧ b1.weight ≠ 0
    (accepts s = true → vfEnabled s sl = true →
      (b.enable = false → exec (.mailboxEnable sl m v) s = .next (putMbox s sl m
        (if valid then { b1 with enable := true, halted := false } else { b1 with err := true, errcode := 1 }))) ∧
      (b.enable = true → exec (.mailboxEnable sl m v) s = .next s) ∧
      (b.enable = false → exec (.kick sl m) s = .next s) ∧
      (∃ t, exec (.mailboxDisable sl m) s = .next t ∧ (getMbox t sl m).enable = false ∧ (getMbox t sl m).fetch = none ∧
        (getMbox t sl m).paused = false ∧ (getMbox t sl m).expseq = b.expseq ∧ t.mem = s.mem ∧
        (∀ h, waiting h → ∀ x, x ∈ (getMbox t sl m).held → x.seq = h.seq → x.done = true ∧ x.status = 4) ∧
        (∀ x, x ∈ b.held → gridStopped s sl x = true → ∃ y, y ∈ (getMbox t sl m).held ∧ y.seq = x.seq ∧ keepsLater y = false) ∧
        (∀ h, (∀ h', ¬waiting h') → nextRecord cleared = some h → mayStart s sl h = false →
          ∀ x, x ∈ (getMbox t sl m).held → x.seq = h.seq → x.done = true ∧ x.status = 4 ∧ x.detail = 0))) ∧
    let s0 := putMbox s sl m { b with fetch := some (0, false), paused := false }
    (b.enable = true → accepts s = true → vfEnabled s sl = true → mayWork s sl = false → exec (.kick sl m) s = .next s0) ∧
    (b.enable = true → mayWork s sl = true →
      let fetched := fun (t : State) (hs : List Held) => (getMbox t sl m).held = b.held ++ hs ∧ t.mem = s.mem ∧
        (getMbox t sl m).expseq = b.expseq + BitVec.ofNat 64 hs.length ∧ (getMbox t sl m).enable = true
      (16 ≤ heldCount b → ∃ t, exec (.kick sl m) s = .next t ∧ fetched t [] ∧ (getMbox t sl m).paused = true ∧
        (getMbox t sl m).fetch = none) ∧
      (heldCount b < 16 →
        (∀ s1, readRingSlot s0 sl m = .mismatch s1 → ∃ t, exec (.kick sl m) s = .next t ∧ fetched t [] ∧
          (getMbox t sl m).fetch = some (1, false)) ∧
        (∀ h s1 s3, readRingSlot s0 sl m = .record h s1 → heldCount b + 1 < 16 →
          let s2 := putMbox s1 sl m { getMbox s1 sl m with held := b.held ++ [h], expseq := b.expseq + 1, fetch := none }
          readRingSlot s2 sl m = .mismatch s3 → ∃ t, exec (.kick sl m) s = .next t ∧ fetched t [h] ∧ (getMbox t sl m).fetch = none) ∧
        (∀ code e, readRingSlot s0 sl m = .fault code e → ∃ t, exec (.kick sl m) s = .next t ∧ (getMbox t sl m).enable = false ∧
          (getMbox t sl m).err = true ∧ (getMbox t sl m).errcode = code ∧ EventSeen t sl 4 ∧
          ((∀ h', ¬waiting h') → nextRecord cleared = none → (getMbox t sl m).held = cleared.held)) ∧
        (∀ n s1, b.fetch = some (n, false) → readRingSlot s sl m = .mismatch s1 → ∃ t, exec (.sealRetry sl m) s = .next t ∧ fetched t [] ∧
          (n < 64 → (getMbox t sl m).fetch = some (n + 1, false)) ∧
          (64 ≤ n → (getMbox t sl m).fetch = none ∧ (getMbox t sl m).kahead = true)) ∧
        (∀ s1, b.paused = true → readRingSlot (putMbox s sl m { b with paused := false }) sl m = .mismatch s1 →
          ∃ t, exec (.fetchContinue sl m) s = .next t ∧ fetched t [] ∧ (getMbox t sl m).paused = false ∧ (getMbox t sl m).fetch = none)) ∧
      (16 ≤ heldCount b → exec (.fetchContinue sl m) s = .next s))

/-- The start of records, and wait and signal records (09 R201, R203, R205, R206, R219): the oldest record not started starts, once none
before it keeps it waiting. -/
def Claims.RecordSteps : Prop :=
  ∀ (s : State) (sl m : Nat) (h : Held),
    let b := getMbox s sl m
    (nextRecord b = some h → b.halted = false → mayWork s sl = true → mayStart s sl h = true →
      exec (.recordStart sl m) s = .next (modHeld s sl m h.seq (fun x => match recordError s sl h with
        | some i => { x with started := true, done := true, status := 4, detail := i }
        | none => { x with started := true }))) ∧
    ((∃ e, e ∈ b.held ∧ e.started = true ∧ e.complete = false ∧ e.released = false) → exec (.recordStart sl m) s = .next s) ∧
    (activeRecord s sl m 1 = some h → s.powerLatch = false → ∀ i, (i = .waitRecord sl m ∨ i = .waitConditionMet sl m) →
      (∀ c, c < 6 → bitOf (recWord h (2 * c + 2)) 6 = true →
        recWord h (2 * c + 3) ≤ (getMbox s sl (recWord h (2 * c + 2) % 64)).lastdone.toNat) →
      exec i s = .next (finishHeld s sl m h.seq 0 0)) ∧
    (activeRecord s sl m 1 = some h → ∀ c, c < 6 → bitOf (recWord h (2 * c + 2)) 6 = true →
      (getMbox s sl (recWord h (2 * c + 2) % 64)).lastdone.toNat < recWord h (2 * c + 3) →
      exec (.waitRecord sl m) s = .next s ∧ exec (.waitConditionMet sl m) s = .next s) ∧
    (∀ k s1, activeRecord s sl m 2 = some h → s.powerLatch = false → translate2 s (ringUnit sl) sl (recWord h 2) .write = .ok (k, s1) →
      (isPoisoned s1 k = false → reach s1 sl k = .ok → ∃ t, exec (.signalRecord sl m) s = .next t ∧
        mreadN t.mem k 8 = natBytes 8 (recWord h 3) ∧ (∀ a, a < k ∨ k + 8 ≤ a → mread t.mem a = mread (flushLine s1 sl (lineOf k)).mem a) ∧
        ∀ x, x ∈ (getMbox t sl m).held → x.seq = h.seq → x.done = true ∧ x.status = 0) ∧
      (isPoisoned s1 k = true → ∃ t, exec (.signalRecord sl m) s = .next t ∧ (getMbox t sl m).enable = false ∧
        (getMbox t sl m).errcode = 4 ∧ EventSeen t sl 4 ∧ t.mem = s.mem ∧
        ∀ x, x ∈ (getMbox t sl m).held → x.seq = h.seq → x.done = true ∧ x.status = 8))

/-- Message records (09 R211): one is written into the area of its mailbox's resident grid while fewer than eight wait there; one for a
mailbox without an owner has no receiver, nor has one that was held there as the grid that owned it exited. -/
def Claims.Messages : Prop :=
  ∀ (s : State) (sl m : Nat) (h : Held) (i : Instr), activeRecord s sl m 3 = some h → s.powerLatch = false →
    (i = .messageRecord sl m ∨ i = .messageDelivery sl m) →
    (ownerOf (getSlice s sl) m = none ∨ h.orphan = true → exec i s = .next (finishHeld s sl m h.seq 5 0)) ∧
    (∀ id g, h.orphan = false → ownerOf (getSlice s sl) m = some (id, g) →
      let c := msgsOf g m
      (8 ≤ c.waiting.length → exec i s = .next s) ∧
      (∀ k s1, c.waiting.length < 8 →
        translate s (ringUnit sl) sl g.ctx (g.msgArea + BitVec.ofNat 64 (m * 2048 + c.delivered % 16 * 128)) .write = .ok (k, s1) →
        isPoisoned s1 k = false → reach s1 sl k = .ok →
        ∃ t g', exec i s = .next t ∧ mreadN t.mem k 128 = messageBytes h ∧
          (∀ a, a < k ∨ k + 128 ≤ a → mread t.mem a = mread (flushLine s1 sl (lineOf k)).mem a) ∧ tfind (getSlice t sl).grids id = some g' ∧
          msgsOf g' m = { c with delivered := c.delivered + 1, waiting := c.waiting ++ [h.seq] } ∧
          ∀ x, x ∈ (getMbox t sl m).held → x.seq = h.seq → x.complete = true ∧ x.delivered = true))

/-- Completion (09 R199, R203-R206): the completion record takes the sequence number, status and detail; a record that is complete leaves
the mailbox from its head, and LASTDONE follows. -/
def Claims.RecordCompletion : Prop :=
  ∀ (s : State) (sl m : Nat) (h : Held) (rest : List Held), (getMbox s sl m).held = h :: rest → h.done = true →
    s.powerLatch = false → (∀ x, x ∈ rest → x.seq ≠ h.seq ∧ x.full = false) →
    let after := fun (t : State) =>
      if h.status = 6 then (getMbox t sl m).held = { h with done := false, complete := true, full := false } :: rest ∧
        (getMbox t sl m).lastdone = (getMbox s sl m).lastdone
      else (getMbox t sl m).held = rest ∧ (getMbox t sl m).lastdone = BitVec.ofNat 64 h.seq
    ((recWord h 1 = 0 ∨ recWord h 1 % 16 ≠ 0) → ∃ t, exec (.recordComplete sl m) s = .next t ∧ after t ∧ t.mem = s.mem ∧
      (h.status = 4 → (getMbox t sl m).err = true ∧ (getMbox t sl m).errcode = 2)) ∧
    (∀ k s1, recWord h 1 ≠ 0 → recWord h 1 % 16 = 0 → translate2 s (ringUnit sl) sl (recWord h 1) .write = .ok (k, s1) →
      getMbox s1 sl m = getMbox s sl m → isPoisoned s1 k = false → reach s1 sl k = .ok →
      ∃ t, exec (.recordComplete sl m) s = .next t ∧ after t ∧ mreadN t.mem k 8 = natBytes 8 h.seq ∧
        mreadN t.mem (k + 8) 4 = natBytes 4 h.status ∧ mreadN t.mem (k + 12) 4 = natBytes 4 h.detail ∧
        ∀ a, a < k ∨ k + 16 ≤ a → mread t.mem a = mread (flushLine s1 sl (lineOf k)).mem a)

/-- Launches (09 R200, R203, R204; 04 R91; 02 R23; 11 R268): a launch whose context or mailboxes are not there any more completes as a
record error; a descriptor that fails a check, cannot be read or has no room completes the record with its
status and detail; one whose port does not answer waits (11 R258); else a grid starts under the next number, and its context runs. -/
def Claims.Launches : Prop :=
  ∀ (s : State) (sl m : Nat) (h : Held), activeRecord s sl m 0 = some h →
    let ctx := recWord h 5 % 2 ^ 16
    let x := getCtx s sl ctx
    let ends := fun (status detail : Nat) => exec (.launchRecord sl m) s = .next (finishHeld s sl m h.seq status detail)
    (mayWork s sl = false → exec (.launchRecord sl m) s = .next s) ∧
    (∀ i, mayWork s sl = true → recordError s sl h = some i → ends 4 i) ∧
    (mayWork s sl = true → h.bad = none → (x.state = 0 ∨ x.state = 6) → ends 4 5) ∧
    (mayWork s sl = true → recordError s sl h = none → (x.state = 1 ∨ x.state = 2) → x.stop = none →
      (recWord h 2 % 64 ≠ 0 → ends 1 1) ∧
      (recWord h 2 % 64 = 0 →
        (readKernel s sl ctx (h.words.getD 2 0) = .error .waits → exec (.launchRecord sl m) s = .next s) ∧
        (∀ tag, readKernel s sl ctx (h.words.getD 2 0) = .error (.poison tag) →
          exec (.launchRecord sl m) s = .next (finishHeld (tellTag s sl tag) sl m h.seq 1 3)) ∧
        (∀ st k ia, readKernel s sl ctx (h.words.getD 2 0) = .error (.fail st k ia) →
          exec (.launchRecord sl m) s = .next (finishHeld (reportTr s sl ctx (.fail st k ia)) sl m h.seq 1 2)) ∧
        (∀ d s1, readKernel s sl ctx (h.words.getD 2 0) = .ok (d, s1) → entryWaits s1 sl ctx (kernelOf d).entry = true →
          exec (.launchRecord sl m) s = .next s) ∧
        (∀ d s1, readKernel s sl ctx (h.words.getD 2 0) = .ok (d, s1) → entryWaits s1 sl ctx (kernelOf d).entry = false →
          let g := gridOf h m (kernelOf d)
          let id := (getSlice s1 sl).nextGrid
          ((kernelOk d = false ∨ dimsFit g = false) →
            exec (.launchRecord sl m) s = .next (finishHeld s1 sl m h.seq 1 0)) ∧
          (∀ w, kernelOk d = true → dimsFit g = true → placementError s1 sl id g = some w →
            exec (.launchRecord sl m) s = .next (finishHeld s1 sl m h.seq 2 w)) ∧
          (kernelOk d = true → dimsFit g = true → placementError s1 sl id g = none →
            ∃ t, exec (.launchRecord sl m) s = .next t ∧ tfind (getSlice t sl).grids id = some g ∧
              (getSlice t sl).nextGrid = id + 1 ∧ (getCtx t sl ctx).state = 2 ∧ t.mem = s1.mem ∧ t.cores = s1.cores ∧
              (∀ y, y ∈ (getMbox t sl m).held → y.seq = h.seq → y.grid = some id) ∧
              g.ctx = ctx ∧ g.next = 0 ∧ g.mbox = m ∧ g.seq = h.seq ∧ g.counters = [] ∧
              g.dims = (recWord h 3 % 2 ^ 21 + 1, recWord h 3 / 2 ^ 21 % 2 ^ 21 + 1, recWord h 3 / 2 ^ 42 % 2 ^ 21 + 1)))))

/-- Placement (09 R207-R210, R213; 02 R19, R39): with no saved or spawned team that waits, the only grid's next team goes to the core that
gives it the widest grant, then has the fewest warps, then the lowest number, and its threads find no older copy in that core's L1 (08
R183). Reservations, the start of a resident grid, and what waits. -/
def Claims.Placement : Prop :=
  ∀ (s : State) (sl id : Nat) (g : Grid),
    (∀ core grant, mayWork s sl = true → trySpawn s sl = none → savedHeads s sl = [] → savedLeft s sl = [] → (getSlice s sl).grids = [(id, g)] →
      g.next < teamCount g → entryWaits s sl g.ctx g.kernel.entry = false →
      (getCtx s sl g.ctx).state = 2 → (getCtx s sl g.ctx).stop = none → g.kernel.det = false → gridPrio s sl g < 4 →
      chooseCore s (coresOf s sl) g.ctx g.kernel (grantsFor (requestFor s sl g.ctx g.kernel)) = some (core, grant) →
      ∃ t, exec (.teamPlacement sl) s = .next t ∧ tfind (getSlice t sl).grids id = some { g with next := g.next + 1, reserved := false } ∧
        t.mem = s.mem ∧ (∀ n, n ≠ core → getCore t n = getCore s n) ∧ (getCore t core).clean = [] ∧
        (∀ b i, bankFor (getCore s core) g.ctx = some b → tfree (getCore s core).teams 56 0 = some i →
          getTeam t core i = { gridTeam sl id g g.next g.next grant with bank := b } ∧
          ((getCore t core).bank b).owner = some g.ctx ∧
          (∀ k, k ≠ i → tfind (getCore t core).teams k = tfind (getCore s core).teams k) ∧
          (∀ k w, getWarp s core k = some w → getWarp t core k = some w))) ∧
    (trySpawn s sl = none → savedHeads s sl = [] → (getSlice s sl).grids = [] → exec (.teamPlacement sl) s = .next s) ∧
    (mayWork s sl = true → tfind (getSlice s sl).grids id = some g → (getCtx s sl g.ctx).state = 2 → (getCtx s sl g.ctx).stop = none →
      (g.next < teamCount g → exec (.placementReservation sl id) s = .next (putGrid s sl id { g with reserved := true })) ∧
      (teamCount g ≤ g.next → g.running = false → g.record = none → ∃ t, exec (.residentGridStart sl id) s = .next t ∧
        tfind (getSlice t sl).grids id = some { g with running := true } ∧ t.mem = s.mem ∧ t.cores = s.cores ∧
        (∀ x, x ∈ (getMbox t sl g.mbox).held → x.seq = g.seq → x.done = true ∧ x.status = 6)) ∧
      (∀ h, teamCount g ≤ g.next → g.running = false → g.record = some h → exec (.residentGridStart sl id) s =
        .next (match postMoved (putGrid s sl id { g with running := true }) sl h 6 0 false with
          | none => s
          | some t => t)) ∧
      (g.running = true → exec (.residentGridStart sl id) s = .next s))

/-- The end of teams and grids (13 R323; 09 R204, R211, R214, R215; 03 R51; 10 R243; 11 R263, R264): a team with no lane and no operation left goes and declines
on the counters that it has left; a team cluster retires once its teams have; a grid completes with status 0, or 7 where teams were lost, while its context runs
or quiesces, and messages for it that were not popped, or still held, have no receiver; one that came with an import writes its launch
record's completion record itself. -/
def Claims.TeamsAndGridsEnd : Prop :=
  ∀ (s : State) (sl id : Nat) (g : Grid), tfind (getSlice s sl).grids id = some g → s.powerLatch = false →
    (∀ core k t0, tfind (getCore s core).teams k = some t0 → t0.slice = sl → t0.grid = id → t0.spawned = false → t0.order ∉ g.exited →
      liveWarps s core k = [] → teamOps s core k = false → (getCtx s sl t0.ctx).stop = none →
      ((getCtx s sl t0.ctx).state = 2 ∨ (getCtx s sl t0.ctx).state = 4) →
      ∃ t g', exec (.teamExit core k) s = .next t ∧ tfind (getSlice t sl).grids id = some g' ∧ g'.exited = g.exited ++ [t0.order] ∧
        (∀ c, c < 16 → (c, t0.order) ∈ g'.claims) ∧ (∀ c, c ∈ g.claims → c ∈ g'.claims) ∧ g'.counters = g.counters ∧ t.mem = s.mem ∧
        (g.kernel.det = false → tfind (getCore t core).teams k = none ∧ ∀ n w, getWarp t core n = some w → w.team ≠ k) ∧
        (g.kernel.det = true → t.cores = s.cores)) ∧
    (g.kernel.det = true → g.retired * clusterSize g.kernel < g.next →
      (∀ j, j < clusterSize g.kernel → g.retired * clusterSize g.kernel + j ∈ g.exited) →
      ∃ t, exec (.clusterRetire sl id) s = .next t ∧ tfind (getSlice t sl).grids id = some { g with retired := g.retired + 1 } ∧
        t.mem = s.mem ∧ ∀ n e, n ∈ coresOf s sl → e ∈ (getCore t n).teams →
          ¬(e.2.slice = sl ∧ e.2.grid = id ∧ e.2.order / clusterSize g.kernel = g.retired)) ∧
    (∀ s1, teamCount g ≤ g.next → g.running = true → teamsLeft s sl id = false → spawnsLeft s sl g.ctx id = false →
      ((getCtx s sl g.ctx).state = 2 ∨ (getCtx s sl g.ctx).state = 4) → (getCtx s sl g.ctx).stop = none → statusPending s sl g = false →
      let status := if g.lost = 0 then 0 else 7
      (drainCores (coresOf s sl) s).bind (fun s2 => flushSlice s2 sl) = some s1 →
      ((∃ d, d ∈ s1.deferred ∧ d.slice = sl ∧ d.ctx = g.ctx) → exec (.gridComplete sl id) s = .next s1) ∧
      ((∀ d, d ∈ s1.deferred → ¬(d.slice = sl ∧ d.ctx = g.ctx)) → g.record = none → ∃ t, exec (.gridComplete sl id) s = .next t ∧
        tfind (getSlice t sl).grids id = none ∧ t.mem = s1.mem ∧
        (∀ x, x ∈ (getMbox t sl g.mbox).held → x.seq = g.seq → x.done = true ∧ x.status = status ∧ x.detail = g.lost) ∧
        (∀ k, k ≠ id → tfind (getSlice t sl).grids k = tfind (getSlice s1 sl).grids k) ∧
        (∀ e q, e ∈ g.msgs → q ∈ e.2.waiting → (e.1 ≠ g.mbox ∨ q ≠ g.seq) → ∀ x, x ∈ (getMbox t sl e.1).held → x.seq = q →
          x.done = true ∧ x.status = 5) ∧
        (∀ m x, m < 64 → ownsMailbox g m = true → activeRecord s1 sl m 3 = some x → ((getMbox s1 sl m).held.map (fun h => h.seq)).Nodup →
          (∀ h, h ∈ (getMbox s1 sl m).held → h.started = true) → (m ≠ g.mbox ∨ x.seq ≠ g.seq) →
          ∀ y, y ∈ (getMbox t sl m).held → y.seq = x.seq → y.done = true ∧ y.status = 5) ∧
        ((getCtx s1 sl g.ctx).state = 4 → (getCtx t sl g.ctx).state = 4) ∧
        ((getCtx s1 sl g.ctx).state = 2 → (∀ e, e ∈ (getSlice s1 sl).grids → e.1 ≠ id → e.2.ctx ≠ g.ctx) →
          (getCtx t sl g.ctx).state = 1)) ∧
      (∀ h k s3, (∀ d, d ∈ s1.deferred → ¬(d.slice = sl ∧ d.ctx = g.ctx)) → g.record = some h → recWord h 1 ≠ 0 → recWord h 1 % 16 = 0 →
        translate2 (orphanMessages (putSlice s1 sl { getSlice s1 sl with grids := tdel (getSlice s1 sl).grids id }) sl g) (ringUnit sl) sl
          (recWord h 1) .write = .ok (k, s3) → isPoisoned s3 k = false → reach s3 sl k = .ok →
        ∃ t, exec (.gridComplete sl id) s = .next t ∧ tfind (getSlice t sl).grids id = none ∧ mreadN t.mem k 8 = natBytes 8 h.seq ∧
          mreadN t.mem (k + 8) 4 = natBytes 4 status ∧ mreadN t.mem (k + 12) 4 = natBytes 4 g.lost ∧
          ∀ a, a < k ∨ k + 16 ≤ a → mread t.mem a = mread (flushLine s3 sl (lineOf k)).mem a))

/-- The module's own resets (01 R14-R17; 11 R249, R281): a cold reset keeps the fuses and what lies outside the module; the power-up order
ends with the module as reset, or stops with the failure until an image is active; a device reset keeps the journal with its generation and
the semaphore too, and waits for the outcome of an open commit. -/
def Claims.ModuleResets : Prop :=
  ∀ (s : State),
    let wiped := fun (t : State) => t.cores = [] ∧ t.slices = [] ∧ t.ops = [] ∧ t.engines = [] ∧ t.tlb = [] ∧ t.deferred = [] ∧
      t.granMap = List.replicate 16 0x1F ∧ t.layPhase = 0 ∧ t.corecap = s.corecap ∧ t.fwMin = s.fwMin ∧
      ∀ a, mread t.mem a = if a < 2 ^ 50 then 0 else mread s.mem a
    (∃ t, exec .coldReset s = .next t ∧ wiped t ∧ t.powerLatch = true ∧ t.deviceErr = false ∧ t.laysemHeld = false ∧ t.layGen = 0 ∧
      t.journal = none ∧ t.debugLife = false ∧ t.pkgid = 0) ∧
    (s.powerLatch = true → s.deviceErr = false →
      let f := firmwareOf (Config.bootHeader s.fresh) (Config.imageMeasures s.fresh)
      (s.fwstat = 0 → ∃ t, exec .powerUp s = .next t ∧
        if Config.bootVerifies s.fresh = true ∧ s.fwMin ≤ f.version then
          wiped t ∧ t.powerLatch = false ∧ t.laysemHeld = false ∧ t.fwActive = f ∧ t.fwstat = 0
        else t.fwstat = (if Config.bootVerifies s.fresh then 4 else 3) ∧ t.powerLatch = true ∧ t.mem = s.mem ∧ t.slices = s.slices) ∧
      (s.fwstat = 2 → ∃ t, exec .powerUp s = .next t ∧ wiped t ∧ t.powerLatch = false ∧ t.fwActive = s.fwActive ∧ t.fwstat = 2) ∧
      (s.fwstat ≠ 0 → s.fwstat ≠ 2 → exec .powerUp s = .next s)) ∧
    (s.powerLatch = false → exec .powerUp s = .next s) ∧
    (∀ (p : Port) (v : DWord), s.powerLatch = false → v.toNat % 16 = 4 →
      (layRefused s p v = true → exec (.deviceReset p v) s = .next { s with layResult := 6, layBad := 0 }) ∧
      (layRefused s p v = false → layoutSettled s = false → exec (.deviceReset p v) s = .next { s with resetPending := true }) ∧
      (layRefused s p v = false → layoutSettled s = true → ∃ t, exec (.deviceReset p v) s = .next t ∧ wiped t ∧ t.layGen = s.layGen ∧
        t.journal = s.journal ∧ t.laysemHeld = s.laysemHeld ∧ t.laysemPort = s.laysemPort ∧ t.laysemToken = s.laysemToken ∧
        t.debugLife = s.debugLife ∧ t.fwActive = s.fwActive ∧ t.deviceErr = false ∧ t.resetPending = false)) ∧
    (s.resetPending = true → s.powerLatch = false → s.layPhase = 1 → ∃ t, exec .layoutPhaseEnd s = .next t ∧
      if badItem s = none ∧ s.deviceErr = false then t.resetPending = true ∧ t.layPhase = 2 else wiped t ∧ t.resetPending = false)

/-- The host ports' links and the UALink ports (01 R14; 11 R256-R258, R274): what goes down, what waits, and what comes back; a reset
of a port takes its functions' error reports, waiting messages and vector tables, and leaves contexts. -/
def Claims.Links : Prop :=
  ∀ (s : State) (p : Port),
    let quiet := ∀ n, n < 16 → (getSlice s n).slstat ≠ 1 ∧ (getSlice s n).xlreq = none ∧ ∀ e, e ∈ (getSlice s n).ctxs → e.2.state ≠ 7
    let masked := fun (n v : Nat) => (msixEntry (getSlice s n) v).getLsbD 96
    (s.linkUp.length = 2 → portUp s p = true → ∃ t, exec (.portLinkDown p) s = .next t ∧ portUp t p = false ∧
      (∀ q, q ≠ p → portUp t q = portUp s q) ∧ t.mem = s.mem ∧ t.cores = s.cores ∧ t.slices = s.slices ∧
      ∃ e : Aer, e.port = some p ∧ t.aer = s.aer ++ [e]) ∧
    (portUp s p = false → exec (.portLinkDown p) s = .next s ∧
      (quiet → exec (.hostAccessTimeout p) s = .next { s with hostTimeout := setAt s.hostTimeout (portIx p) true })) ∧
    (s.linkUp.length = 2 → portUp s p = false → quiet → ∃ t, exec (.portLinkReturn p) s = .next t ∧ portUp t p = true ∧
      (∀ q, q ≠ p → portUp t q = portUp s q) ∧ t.mem = s.mem ∧ t.cores = s.cores ∧
      (∀ n, n < 16 → slicePort s n = p →
        (getSlice t n).msixSent = (getSlice s n).msixSent ++ (getSlice s n).msixWaiting.filter (fun v => !masked n v) ∧
        (getSlice t n).msixWaiting = (getSlice s n).msixWaiting.filter (masked n)) ∧
      (∀ n, n < 16 → slicePort s n ≠ p → portUp s (slicePort s n) = false → getSlice t n = getSlice s n)) ∧
    (portUp s p = true → exec (.portLinkReturn p) s = .next s ∧ exec (.hostAccessTimeout p) s = .next s) ∧
    (s.linkUp.length = 2 → ∃ t, exec (.perst p) s = .next t ∧ portUp t p = false ∧ t.mem = s.mem ∧ t.cores = s.cores ∧
      (∀ q, q ≠ p → portUp t q = portUp s q) ∧ (∀ e, e ∈ t.aer ↔ e ∈ s.aer ∧ e.port ≠ some p) ∧ (portUp s p = false → t.linkLong = s.linkLong) ∧
      (∀ n, getSlice t n = if slicePort s n = p then { getSlice s n with msixTable := [], msixWaiting := [] } else getSlice s n) ∧
      ∀ sl c, getCtx t sl c = getCtx s sl c) ∧
    (∀ n, n < 8 → ∃ t, exec (.ualinkPortDown n) s = .next t ∧ { t with ualUp := s.ualUp } = s ∧
      ∀ k, k < 8 → t.ualUp.getLsbD k = (s.ualUp.getLsbD k && decide (k ≠ n))) ∧
    (∀ sl page s1,
      (drainCores ((coresOf s sl).filter (fun c => (getCore s c).pend.any (fun e => inHostPage page e.line))) s).bind
        (fun s2 => flushLines s2 sl ((l2Lines s2 sl).filter (inHostPage page))) = some s1 →
      exec (.atsInvalidation sl page) s = .next s1)

/-- Sensors, power and hardware errors (01 R11-R13; 07 R152; 10 R237; 11 R257, R274): a reading is taken; at the trip level everything
stops and power goes; the governors' shares follow the module's power; a device error stops every context and puts every interface in ERROR;
an uncorrectable memory error poisons its line and is counted in the logs of those whose line it is, or waits for the line's next write-back. -/
def Claims.SensorsAndErrors : Prop :=
  ∀ (s : State),
    (∀ i r, i < 25 → ∃ t, exec (.sensorUpdate i r) s = .next t ∧
      (let x := tget {} s.sensors i
       let y := tget {} t.sensors i
       y.seq = (x.seq + 1) % 2 ^ 32 ∧ y.valid = r.isSome ∧ y.value = r.getD 0 ∧ y.kind = (if i ≤ 19 then 0 else if i ≤ 23 then 1 else 2)) ∧
      ((∀ v, r = some v → (18 ≤ i ∨ (i ≤ 1 ∧ v.toInt < 110 * 256) ∨ (2 ≤ i ∧ i < 18 ∧ v.toInt < 100 * 256))) →
        t.cores = s.cores ∧ t.mem = s.mem ∧ t.deviceErr = s.deviceErr ∧ t.powerLatch = s.powerLatch) ∧
      (∀ v, r = some v → s.powerLatch = false → ((i ≤ 1 ∧ 110 * 256 ≤ v.toInt) ∨ (2 ≤ i ∧ i < 18 ∧ 100 * 256 ≤ v.toInt)) →
        t.deviceErr = true ∧ t.powerLatch = true ∧ t.cores = [] ∧ t.engines = [] ∧ t.ops = [])) ∧
    (∀ i r, 25 ≤ i → exec (.sensorUpdate i r) s = .next s) ∧
    (∀ w, exec (.powerWindowEnd w) s = .next
      (if 2600 < w then { s with shares := s.shares.map (fun x => x * 19 / 20) }
       else if w ≤ 2450 then { s with shares := s.shares.map (fun x => min 1450000000 (x * 21 / 20)) } else s)) ∧
    (accepts s = true → s.resetPending = false → ∃ t, exec .deviceError s = .next t ∧ t.deviceErr = true ∧ t.mem = s.mem ∧ t.cores = s.cores ∧
      (∀ sl, sl < 16 → (getSlice t sl).tdi = .error) ∧
      (∀ sl c, (getCtx s sl c).state ≠ 0 → (getCtx t sl c).stop ≠ none) ∧
      (∀ sl c st, (getCtx s sl c).stop = some st → (getCtx t sl c).stop = some st)) ∧
    (accepts s = false → exec .deviceError s = .next s) ∧
    (∀ line, (∃ t, exec (.memoryUncorrectableError line true) s = .next t ∧ lineOf line ∈ t.wbErr ∧ { t with wbErr := s.wbErr } = s) ∧
      (∃ t, exec (.memoryUncorrectableError line false) s = .next t ∧ tfind t.poison (lineOf line) = some 0 ∧
        (∀ k, k ≠ lineOf line → tfind t.poison k = tfind s.poison k) ∧ t.mem = s.mem ∧ t.cores = s.cores ∧
        (∀ sl, let n := (getSlice s sl).errcnt.toNat
          let owners := if isHbm (lineOf line) then (sliceOfGranule s (lineOf line / 2 ^ 36)).toList
            else (s.l2.filter (fun e => lineOf e.1 == lineOf line)).map (fun e => e.1 % 128)
          getSlice t sl = { getSlice s sl with
            errcnt := BitVec.ofNat 64 (n % 2 ^ 32 + min (n / 2 ^ 32 + owners.count sl) (2 ^ 32 - 1) * 2 ^ 32) })))

/-- The layout semaphore (11 R249): a read takes it where it is free, or where the other port's link has been down too long, and answers
who holds it with which token; the holder gives it up by writing its token. -/
def Claims.Semaphore : Prop :=
  ∀ (s : State) (p : Port) (v : DWord), s.powerLatch = false →
    let reads := fun (t : State) => t.lastRead = BitVec.ofNat 64 ((if t.laysemHeld then 2 ^ 63 else 0) +
      (if t.laysemPort = .b then 2 ^ 60 else 0) + t.laysemToken)
    (s.laysemHeld = false → ∃ t, exec (.laysemRead p) s = .next t ∧ t.laysemHeld = true ∧ t.laysemPort = p ∧
      t.laysemToken = (if (s.tokenCtr + 1) % 2 ^ 32 = 0 then 1 else (s.tokenCtr + 1) % 2 ^ 32) ∧ t.tokenCtr = t.laysemToken ∧ reads t) ∧
    (s.laysemHeld = true → (s.laysemPort = p ∨ portUp s s.laysemPort = true ∧ s.linkLong.getD (portIx s.laysemPort) false = false) →
      ∃ t, exec (.laysemRead p) s = .next t ∧ { t with lastRead := s.lastRead } = s ∧ reads t) ∧
    (s.laysemHeld = true → s.laysemPort ≠ p → portUp s s.laysemPort = false → s.linkLong.length = 2 →
      ∃ t, exec (.laysemRead p) s = .next t ∧ reads t ∧ t.laysemHeld = true ∧
        (if s.linkLong.getD (portIx s.laysemPort) false = true ∨ s.semtake ≤ Config.downFor s.fresh then
          t.laysemPort = p ∧ t.laysemToken ≠ 0 else t.laysemPort = s.laysemPort ∧ t.laysemToken = s.laysemToken)) ∧
    (exec (.laysemWrite p v) s = .next (if s.laysemHeld = true ∧ s.laysemPort = p ∧ v.toNat % 2 ^ 32 = s.laysemToken then
      { s with laysemHeld := false, laysemPort := .a, laysemToken := 0 } else s))

/-- The two phases of a layout (11 R250, R253, R254): the commands of the holder with its token, their refusals, the end of each phase (ways
that change owner are written back before), and what a watchdog reset makes of the journal. -/
def Claims.LayoutPhases : Prop :=
  ∀ (s : State), accepts s = true → s.resetPending = false →
    let result := fun (n : Nat) => { s with layResult := n, layBad := 0 }
    (∀ (p : Port) (v : DWord) (cmd : Nat) (i : Instr), v.toNat % 16 = cmd →
      ((cmd = 1 ∧ i = .prepare p v) ∨ (cmd = 2 ∧ i = .commit p v) ∨ (cmd = 3 ∧ i = .abort p v)) →
      (layRefused s p v = true → exec i s = .next (result 6)) ∧
      (layRefused s p v = false →
        (cmd = 1 → s.layPhase = 0 → exec i s = .next
          { s with layPhase := 1, journal := some { commit := false, gen := (s.layGen + 1) % 2 ^ 16,
                                                    hash := some (shake256 (stagedBytes s)), applied := false } }) ∧
        (cmd ≠ 1 → s.layPhase = 0 → exec i s = .next (result 6)) ∧
        (s.layPhase ≠ 0 → (s.layPhase ≠ 2 ∨ cmd = 1) → exec i s = .next (result 7)) ∧
        (cmd = 2 → s.layPhase = 2 → exec i s = .next
          { s with layPhase := 3, journal := some { commit := true, gen := (s.layGen + 1) % 2 ^ 16, applied := false } }) ∧
        (cmd = 3 → s.layPhase = 2 → exec i s = .next { s with layPhase := 0, layResult := 8, layBad := 0 }))) ∧
    (s.layPhase = 1 → ∃ t, exec .layoutPhaseEnd s = .next t ∧ t.granMap = s.granMap ∧ t.mem = s.mem ∧ t.layGen = s.layGen ∧
      (badItem s = none → t.layPhase = 2 ∧ t.layResult = 1 ∧ t.layBad = 0) ∧
      (∀ i, badItem s = some i → t.layPhase = 0 ∧ t.layResult = 5 ∧ t.layBad = i)) ∧
    (∀ i n, ((i = .layoutPhaseEnd ∧ s.layPhase = 3 ∧ n = 2) ∨
      (i = .olsanWatchdogReset ∧ n = 4 ∧ ∃ j, s.journal = some j ∧ j.commit = true ∧ j.applied = false)) →
      (clearWays s = none → exec i s = .next s) ∧
      ∀ s1, clearWays s = some s1 → ∃ t, exec i s = .next t ∧ t.layPhase = 0 ∧ t.layResult = n ∧ t.layGen = (s.layGen + 1) % 2 ^ 16 ∧
        t.granMap = s.stagedMap ∧
        (∀ a, (∀ g, g < 16 → a / 2 ^ 36 = g → s.granMap.getD g 0x1F = s.stagedMap.getD g 0x1F) → (isHost a = false ∨ s.xentries = []) →
          mread t.mem a = mread s1.mem a) ∧
        (∀ sl k x, sl < 16 → sliceChanges s sl = true → tfind t.l2 k = some x → k % 128 ≠ sl) ∧
        (∀ a g, g < 16 → a / 2 ^ 36 = g → s.granMap.getD g 0x1F ≠ s.stagedMap.getD g 0x1F → mread t.mem a = 0) ∧
        (∀ sl, sl < 16 → sliceChanges s sl = false → (getSlice t sl).ctxs = (getSlice s sl).ctxs)) ∧
    (∀ j, s.journal = some j →
      (j.commit = false → ∃ t, exec .olsanWatchdogReset s = .next t ∧ t.layPhase = 0 ∧ t.layResult = 3 ∧ t.layGen = s.layGen ∧
        t.granMap = s.granMap ∧ t.mem = s.mem) ∧
      (j.commit = true → j.applied = true → ∃ t, exec .olsanWatchdogReset s = .next t ∧ t.layResult = 2 ∧ t.layGen = s.layGen ∧
        t.granMap = s.granMap ∧ t.mem = s.mem)) ∧
    (s.layPhase ≠ 1 → s.layPhase ≠ 3 → exec .layoutPhaseEnd s = .next s) ∧
    (s.journal = none → exec .olsanWatchdogReset s = .next s)

/-- Firmware and debug (11 R280-R282): the checks of an image and its activation; the nonce; a token that verifies opens debug and resets
every slice, and one that does not is counted. -/
def Claims.FirmwareAndDebug : Prop :=
  ∀ (s : State) (p : Port) (v : DWord),
    (fwRefused s p v = false →
      (v.toNat % 16 = 1 → ∃ t, exec (.fwVerify p v) s = .next t ∧ t.fwActive = s.fwActive ∧
        (let i := stagedImage s.fresh
         t.fwstat = (if Config.imageSigned s.fresh then if i.version < s.fwMin then 4 else 1 else 3) ∧
         (t.fwstat = 1 → t.fwStaged = i))) ∧
      (v.toNat % 16 = 2 → s.fwstat = 1 → exportRuns s = false → ∃ t, exec (.fwActivate p v) s = .next t ∧
        t.fwActive = s.fwStaged ∧ t.fwstat = 2 ∧ t.fwMin = (if s.fwStaged.raise then max s.fwMin s.fwStaged.version else s.fwMin) ∧
        t.cores = s.cores ∧ t.mem = s.mem ∧ t.pfSessions = [none, none] ∧
        (∀ sl x, tfind s.slices sl = some x → (getSlice t sl).session = none ∧
          ((x.tdi = .configLocked ∨ x.tdi = .run) → (getSlice t sl).tdi = .error) ∧
          (x.everLocked = false → (getSlice t sl).ctxs = x.ctxs) ∧
          (∀ c y, x.everLocked = true → tfind x.ctxs c = some y → y.state ≠ 0 → y.state ≠ 8 →
            getCtx t sl c = { y with state := 8, paused := y.state }))) ∧
      (v.toNat % 16 = 2 → (s.fwstat ≠ 1 ∨ exportRuns s = true) → exec (.fwActivate p v) s = .next s)) ∧
    (fwRefused s p v = true → exec (.fwVerify p v) s = .next s ∧ exec (.fwActivate p v) s = .next s) ∧
    (accepts s = true → ∃ t, exec (.dbgnonceRead p) s = .next t ∧ t.lastRead = t.dbgnonce ∧ t.dbgnonce = Config.nonce s.fresh ∧
      { t with dbgnonce := s.dbgnonce, lastRead := s.lastRead, fresh := s.fresh } = s) ∧
    (accepts s = true → holds s p = true → v.toNat = s.laysemToken * 2 ^ 32 + 1 → s.laysemToken < 2 ^ 32 → s.dbgstat ≠ 1 → s.layPhase ≠ 3 → portUp s p = true →
      ∃ t, exec (.debugUnlock p v) s = .next t ∧
        if tokenGood s p then t.debugLife = true ∧ t.dbgstat = 2 ∧
          ∀ sl, sl < 16 → (getSlice t sl).migKey = none ∧ (getSlice t sl).tdi = .error ∧ ∀ c, getCtx t sl c = {}
        else t = { s with dbgfail := (s.dbgfail + 1) % 2 ^ 32, dbgstat := 3 }) ∧
    ((s.dbglen = 0 ∨ 8192 < s.dbglen) → tokenGood s p = false) ∧
    (holds s p = false → exec (.debugUnlock p v) s = .next s)

/-- Sessions with their signed answers, the interface's states, reports and keys of a slice, and the sessions of the two PF0s, 16 and 17 (11
R265, R267, R268, R271, R276). -/
def Claims.Sessions : Prop :=
  ∀ (s : State) (sl : Nat), accepts s = true → vfEnabled s sl = true →
    let x := getSlice s sl
    let locked := x.tdi = .configLocked ∨ x.tdi = .run
    (∀ n, ∃ t y, exec (.keyExchange sl n) s = .next t ∧ (getSlice t sl).session = some y ∧ y.nonce = n ∧ (getSlice t sl).measured = false ∧
      (∃ said, t.hostReply = said ++ Config.signs (said ++ natBytes 8 n.toNat)) ∧
      (getSlice t sl).tdi = (if x.session ≠ none ∧ locked then .error else x.tdi) ∧ t.mem = s.mem ∧ t.cores = s.cores) ∧
    (∃ t, exec (.getMeasurements sl) s = .next t ∧
      (∀ y, x.session = some y → t.hostReply = measurements s sl ++ Config.signs (measurements s sl ++ natBytes 8 y.nonce.toNat)) ∧
      (∃ signature, t.hostReply = measurements s sl ++ signature) ∧
      (getSlice t sl).measured = (x.measured || x.session.isSome) ∧ t.cores = s.cores) ∧
    (exec (.lockInterfaceRequest sl) s = .next (if x.tdi = .configUnlocked ∧ x.session ≠ none ∧ x.measured = true then
      putSlice s sl { x with tdi := .configLocked, everLocked := true } else s)) ∧
    (x.tdi ≠ .configLocked → exec (.startInterfaceRequest sl) s = .next s) ∧
    (x.tdi = .configLocked → ∃ t, exec (.startInterfaceRequest sl) s = .next t ∧ (getSlice t sl).tdi = .run ∧ t.mem = s.mem ∧
      t.cores = s.cores ∧ (∀ c y, tfind x.ctxs c = some y → getCtx t sl c =
        if y.state = 8 then { y with state := y.paused, paused := 0 } else y)) ∧
    exec (.stopInterfaceRequest sl) s = .next (putSlice s sl { x with tdi := .configUnlocked }) ∧
    (∃ t r, exec (.healthReport sl) s = .next t ∧ (getSlice t sl).report = some r ∧ r.seq = x.reportSeq ∧ r.gen = s.layGen ∧
      r.kgen = x.kgen ∧ r.errcnt = x.errcnt ∧ r.notices = x.noticesSince ∧ r.secVersion = s.fwActive.version ∧
      (∀ y, x.session = some y → r.signature = Config.signs (reportFields r ++ natBytes 8 y.nonce.toNat)) ∧
      readVf t sl 0x4000 = BitVec.ofNat 64 x.reportSeq ∧ (getSlice t sl).reportSeq = x.reportSeq + 1 ∧ (getSlice t sl).noticesSince = 0 ∧
      EventSeen t sl 6) ∧
    (exec (.keyRotation sl) s = .next (if x.session ≠ none ∧ x.sweeping = false then
      putSlice s sl { x with kgen := (x.kgen + 1) % 2 ^ 32, sweeping := true } else s)) ∧
    exec (.keySweepComplete sl) s = .next (putSlice s sl { x with sweeping := false }) ∧
    (∀ k, exec (.migrationKeyProvision sl k) s = .next (if x.session ≠ none then putSlice s sl { x with migKey := some k } else s)) ∧
    (∀ f n, (f = 16 ∨ f = 17) → s.pfSessions.length = 2 → (∃ t y, exec (.keyExchange f n) s = .next t ∧ pfSession t f = some y ∧ y.nonce = n ∧
      (∀ g, g ≠ f → (g = 16 ∨ g = 17) → pfSession t g = pfSession s g) ∧ t.slices = s.slices ∧ t.mem = s.mem ∧ t.cores = s.cores) ∧
      ∀ y, pfSession s f = some y → exec (.getMeasurements f) s =
        .next { s with hostReply := moduleBlocks s ++ Config.signs (moduleBlocks s ++ natBytes 8 y.nonce.toNat) })

/-- Accesses of the host and of UALink peers, and routing (08 R192; 11 R259, R267, R275, R278): each is made at the home of the memory
that it may reach; one that may not is answered with nothing and told to the slice that owns the memory,
and so is a request under a key that the slice does not take (log 116). -/
def Claims.PeersAndHosts : Prop :=
  ∀ (s : State),
    (∀ (p : Port) (pa n : Nat) (bs : List Byte) (ks : List Nat), portUp s p = true → accepts s = true →
      (hostKeys s p pa n = some ks → ∃ t, exec (.hostRequest p (.read pa n)) s = .next t ∧
        { t with hostReply := s.hostReply, uses := s.uses, l2 := s.l2, llc := s.llc } = s ∧
        ((∀ k, k ∈ ks → tfind s.poison (lineOf k) = none) → t.hostReply = ks.map (mread s.mem)) ∧
        ((∃ k, k ∈ ks ∧ tfind s.poison (lineOf k) ≠ none) → t.hostReply = [])) ∧
      (hostKeys s p pa bs.length = some ks → ks.Nodup → ∃ t, exec (.hostRequest p (.write pa bs)) s = .next t ∧
        ks.map (mread t.mem) = bs ∧ (∀ a, a ∉ ks → mread t.mem a = mread s.mem a) ∧ t.cores = s.cores ∧ t.slices = s.slices) ∧
      (∀ sl, hostKeys s p pa n = none → isHbm pa = true → sliceOfGranule s (pa / 2 ^ 36) = some sl →
        ∃ t, exec (.hostRequest p (.read pa n)) s = .next t ∧ t.hostReply = [] ∧ t.mem = s.mem ∧ EventSeen t sl 7 ∧
          (getSlice t sl).noticesSince = (getSlice s sl).noticesSince + 1) ∧
      (∀ sl, sl < 16 → ∃ t, exec (.hostRequest p (.endSession sl)) s = .next t ∧ (getSlice t sl).session = none ∧ t.mem = s.mem) ∧
      (∀ sl, ∃ t, exec (.hostRequest p (.offStream sl)) s = .next t ∧ t.mem = s.mem ∧
        (((getSlice s sl).tdi = .configLocked ∨ (getSlice s sl).tdi = .run) → t.hostReply = []))) ∧
    (∀ (sl : Nat) (kgen : BitVec 32), accepts s = true → vfEnabled s sl = true →
      (∀ req, keyTaken s sl kgen.toNat = false → ∃ t, exec (.ualinkRequest sl kgen req) s = .next t ∧ t.hostReply = [] ∧ t.mem = s.mem ∧
        t.cores = s.cores ∧ EventSeen t sl 7 ∧ (getSlice t sl).noticesSince = (getSlice s sl).noticesSince + 1) ∧
      (keyTaken s sl kgen.toNat = true →
        (∀ pa n k s1, peerKey s sl pa .read = .ok (k, s1) → (∀ i, i < n → tfind s1.poison (lineOf (k + i)) = none) →
          ∃ t, exec (.ualinkRequest sl kgen (.read pa n)) s = .next t ∧ t.hostReply = (List.range n).map (fun i => mread s1.mem (k + i)) ∧
            { t with hostReply := s1.hostReply, uses := s1.uses, l2 := s1.l2, llc := s1.llc } = s1) ∧
        (∀ pa bs k s1, peerKey s sl pa .write = .ok (k, s1) → ∃ t, exec (.ualinkRequest sl kgen (.write pa bs)) s = .next t ∧
          mreadN t.mem k bs.length = bs ∧ (∀ a, a < k ∨ k + bs.length ≤ a → mread t.mem a = mread s1.mem a) ∧ t.hostReply = []) ∧
        (∀ pa op data swap nmode k s1, peerKey s sl pa .atomic = .ok (k, s1) → isPoisoned s1 k = false →
          let old := bytesNat (mreadN s1.mem k (atomSize op))
          ∃ t, exec (.ualinkRequest sl kgen (.atomic pa op data swap nmode)) s = .next t ∧ t.hostReply = natBytes (atomSize op) old ∧
            (∀ a, a < k ∨ k + atomSize op ≤ a → mread t.mem a = mread s1.mem a) ∧
            mreadN t.mem k (atomSize op) =
              match (atomResult op old data.toNat swap.toNat (nmodeRm nmode .f32) (nmodeSat nmode .f32)).1 with
              | none => mreadN s1.mem k (atomSize op)
              | some v => natBytes (atomSize op) v) ∧
        (∀ pa n st ia, peerKey s sl pa .read = .error (.fail st 3 ia) → ∃ t, exec (.ualinkRequest sl kgen (.read pa n)) s = .next t ∧
          t.hostReply = [] ∧ t.mem = s.mem ∧ EventSeen t sl 7) ∧
        (∀ pa n st kind ia, peerKey s sl pa .read = .error (.fail st kind ia) → kind ≠ 3 →
          exec (.ualinkRequest sl kgen (.read pa n)) s = .next { s with hostReply := [] }))) ∧
    (∀ (sl i : Nat) (value : BitVec 128) (kgen : BitVec 32), accepts s = true → i < 64 →
      let old := tget 0 (getSlice s sl).routing i
      let new := (value &&& routeMask true) ||| (old &&& ~~~routeMask true)
      (new.toNat / 2 ^ 120 % 2 ^ 8 = 0 → (old &&& routeMask false) = (new &&& routeMask false) →
        exec (.routingEntryWrite sl i value) s = .next (putSlice s sl { getSlice s sl with routing := tset (getSlice s sl).routing i new })) ∧
      (∃ t, exec (.routingEntryWrite sl i value) s = .next t ∧ t.mem = s.mem ∧
        (tget 0 (getSlice t sl).routing i = new ∨ t = s)) ∧
      (vfEnabled s sl = true → (getSlice s sl).session ≠ none → ∃ t, exec (.routingKeyInstall sl i kgen) s = .next t ∧
        (tget 0 (getSlice t sl).routing i).toNat = old.toNat % 2 ^ 60 + kgen.toNat * 2 ^ 60 + old.toNat / 2 ^ 92 * 2 ^ 92 ∧ t.mem = s.mem) ∧
      ((getSlice s sl).session = none → exec (.routingKeyInstall sl i kgen) s = .next s))

/-- The translation cache and register writes (00 R5; 09 R195; 11 R250, R256, R260, R261; 12 R292): a request or a release waits, fails, or
has its outcome, with the translated image in its frame; each written register takes its writable fields, and one that the writer may not write stays. -/
def Claims.CacheAndRegisters : Prop :=
  ∀ (s : State) (sl : Nat), accepts s = true → vfEnabled s sl = true →
    let x := getSlice s sl
    let n := x.xllen.toNat
    let out := fun (t : State) (st : Nat) (w : DWord) => (getSlice t sl).xlstat = st ∧ (getSlice t sl).xlwin = w
    let go := fun (release : Bool) => if release then Instr.xlateRelease sl else Instr.xlateRequest sl
    let busy := fun (release : Bool) => putSlice s sl { x with xlstat := 1, xlreq := some release }
    (∀ release, x.xlstat = 1 → exec (go release) s = .next s) ∧
    (∀ release, x.xlstat ≠ 1 →
      ((n < 64 ∨ 2 ^ 28 < n) → ∃ t, exec (go release) s = .next t ∧ out t 4 0 ∧ t.mem = s.mem ∧ t.xentries = s.xentries) ∧
      (64 ≤ n → n ≤ 2 ^ 28 →
        (olsanRead (busy release) sl x.xlsrc.toNat n = .error .waits → exec (go release) s = .next (busy release)) ∧
        (∀ e, olsanRead (busy release) sl x.xlsrc.toNat n = .error e → e ≠ .waits → ∃ t, exec (go release) s = .next t ∧ out t 4 0) ∧
        (∀ bs s1, olsanRead (busy release) sl x.xlsrc.toNat n = .ok (bs, s1) →
          (portableEntry bs = none → ∃ t, exec (go release) s = .next t ∧ out t 4 0 ∧ t.xentries = s1.xentries) ∧
          (∀ img, portableEntry bs = some img →
            (s1.xcsize ≠ 0 → portUp s1 s1.xcport = false → exec (go release) s = .next (busy release)) ∧
            ((s1.xcsize = 0 ∨ portUp s1 s1.xcport = true) →
              let key := entryKey bs img
              let win : DWord := BitVec.ofNat 64 (0xFF00000000000 + key % 2 ^ 20 * 2 ^ 24)
              let code := translatedImage bs img (0xFF00000000000 + key % 2 ^ 20 * 2 ^ 24)
              ∃ t, exec (go release) s = .next t ∧ t.cores = s1.cores ∧
                if release then out t 8 0 ∧ ∀ e, e ∈ t.xentries → e.key = key → sl < 16 → e.visible.getLsbD sl = false
                else match s1.xentries.find? (fun e => e.slot == key % 2 ^ 20) with
                  | some e => if e.key = key then out t 2 win ∧
                        ∀ e', e' ∈ t.xentries → e'.slot = key % 2 ^ 20 → sl < 16 → e'.visible.getLsbD sl = true
                      else out t 7 0 ∧ t.xentries = s1.xentries
                  | none => if refusedImage bs img then out t 6 0 ∧ t.xentries = s1.xentries
                      else if 2 ^ 24 < code.length then out t 5 0 ∧ t.xentries = s1.xentries
                      else match makeRoom s1 with
                        | none => out t 5 0 ∧ t.xentries = s1.xentries
                        | some (f, s2) => out t 3 win ∧ ∃ e, t.xentries = roomForUse s2.xentries ++ [e] ∧ e.key = key ∧
                            e.slot = key % 2 ^ 20 ∧ e.frame = f ∧ e.visible = BitVec.ofNat 16 (2 ^ sl) ∧ e.code = code))))) ∧
    (∀ v : DWord, exec (.registerWrite (.vf sl 0x10) v) s = .next (if v = 0 then putSlice s sl { x with errcnt := 0 } else s) ∧
      exec (.registerWrite (.vf sl 0xC00) v) s = .next (putSlice s sl { x with xlsrc := v &&& 0xFFFFFFFFFFFC0 }) ∧
      exec (.registerWrite (.vf sl 0xC08) v) s = .next (putSlice s sl { x with xllen := v &&& 0xFFFFFFFF }) ∧
      exec (.registerWrite (.vf sl 0x08) v) s = .next s ∧
      (∀ c, c < 16 → exec (.registerWrite (.vf sl (0x1000 + c * 64)) v) s =
          .next (putCtx s sl c { getCtx s sl c with s1root := v.toNat / 2 ^ 15 % 2 ^ 37 * 2 ^ 15 }) ∧
        exec (.registerWrite (.vf sl (0x1008 + c * 64)) v) s = .next (if (getCtx s sl c).state = 0 then
          putCtx s sl c { getCtx s sl c with saveBase := v &&& ~~~0xFFFF } else s)) ∧
      (∀ p, exec (.registerWrite (.pf0 p 0x08) v) s = .next (if s.laysemHeld = true ∧ s.laysemPort = p then
          { s with semtake := v.toNat % 2 ^ 32 } else s) ∧
        exec (.registerWrite (.pf0 p (0x10010 + sl % 16 * 0x1000)) v) s = .next (putSlice s (sl % 16)
          { getSlice s (sl % 16) with qbudget := v.toNat % 2 ^ 32 })))

/-- What the home caches keep (07 R148-R152): a line brought to a slice's ways reads there as before, and another only as its port has it
where its copy leaves to make room; where what they hold can reach its
port, a line that they give up leaves what an acquire of the slice reads; and a line that an L1 or an LLC gives up leaves memory and every
retired store. -/
def Claims.HomeCaches : Prop :=
  ∀ (s : State) (sl line : Nat),
    (Rising s.l2 → sl < 128 → (∀ hint k, lineOf k = lineOf line → homeByte (l2Fill s sl (lineOf line) hint) sl k = homeByte s sl k) ∧
      ∀ hint k, HomeKept s (l2Fill s sl (lineOf line) hint) sl k) ∧
    (WaysOk s sl → (∀ k x, l2Find s sl (lineOf k) = some x → x.dirty ≠ [] → reach s sl (lineOf k) = .ok) →
      ∃ t, runTurn (.evictL2 sl line) s = .next t ∧ ∀ k, freshByte t sl k = freshByte s sl k) ∧
    (∃ t, runTurn (.evictLlc line) s = .next t ∧ { t with llc := s.llc } = s ∧ tfind t.llc (lineOf line) = none) ∧
    (∀ core, ∃ t, runTurn (.evict core line) s = .next t ∧ t.mem = s.mem ∧ t.l2 = s.l2 ∧ ∀ n, (getCore t n).pend = (getCore s n).pend)

/-- Registers that software writes read back in their writable fields, reserved bits as zero (00 R5; 11 R248, R256, R260, R278, R279): the
host block, the group and member tables, and the MSI-X table with its PBA (log 108). -/
def Claims.Readback : Prop :=
  ∀ (s : State) (sl : Nat) (v : DWord) (p : Port), accepts s = true → sl < 16 →
    let block := 0x10000 + 0x1000 * sl
    let hosts := fun (off : Nat) (mask : DWord) => ∃ t, exec (.registerWrite (.pf0 p (block + off)) v) s = .next t ∧
      readPf0 t (block + off) = v &&& mask ∧ t.mem = s.mem ∧ t.cores = s.cores
    let own := fun (off : Nat) (mask : DWord) => ∃ t, exec (.registerWrite (.vf sl off) v) s = .next t ∧
      readVf t sl off = v &&& mask ∧ t.mem = s.mem ∧ t.cores = s.cores
    hosts 0x000 0xFFFFFFFFF8001 ∧ hosts 0x010 0xFFFFFFFF ∧ hosts 0x040 0xFFFFFFFFFFFF0000 ∧ hosts 0x048 0xFFFFFFFF ∧
    ((getSlice s sl).slstat < 16 → (∀ c, (getCtx s sl c).state < 16) →
      (readPf0 s (block + 0x020)).toNat % 16 = (getSlice s sl).slstat ∧
      (∀ c, c < 15 → (readPf0 s (block + 0x020)).toNat / 2 ^ (4 + 4 * c) % 16 = (getCtx s sl c).state) ∧
      (readPf0 s (block + 0x028)).toNat = (getCtx s sl 15).state) ∧
    (vfEnabled s sl = true →
      (∀ g, g < 64 → own (0x2000 + 16 * g) 0xFFFFFFFF00FFFFFD) ∧
      (∀ m, m < 256 → own (0x2400 + 16 * m) 0xFFFFFFFFFFFFFFFF ∧ own (0x2408 + 16 * m) 0x8000000003FFFFFF) ∧
      (∀ k, k < 64 →
        (∃ t, exec (.registerWrite (.msix sl (16 * k)) v) s = .next t ∧ readMsix t sl (16 * k) = v &&& 0xFFFFFFFFFFFFFFFC) ∧
        (∃ t, exec (.registerWrite (.msix sl (16 * k + 8)) v) s = .next t ∧ readMsix t sl (16 * k + 8) = v &&& 0x1FFFFFFFF)) ∧
      (∀ k, k < 64 → ((readMsix s sl 0x800).getLsbD k = true ↔ k ∈ (getSlice s sl).msixWaiting)))

/-- Portable images (12 R286, R290): each of the five findings makes the translator refuse an image, and the entry of one that it takes
begins with its descriptors, kernel k's at 64 × k, the image's code behind them. -/
def Claims.PortableImages : Prop :=
  ∀ (bs : List Byte) (e : ImageEntry) (i w : Nat), (i, w) ∈ imageWords bs e →
    let rs := Config.regionsOf bs
    let major := w / 2 ^ 25 % 2 ^ 7
    ((w < 2 ^ 31 → regionAt rs i = none → refusedImage bs e = true) ∧
     (∀ o, branchOffset w = some o → regionAt rs (i + o) ≠ regionAt rs i → refusedImage bs e = true) ∧
     (major = 0x51 → regionAt rs i ≠ none → splits bs i w = false → refusedImage bs e = true) ∧
     ((major = 0x52 ∨ major = 0x53) → refusedImage bs e = true) ∧
     (tooWide w (grantsAt bs e i) = true → refusedImage bs e = true)) ∧
    ∀ base k, k < kernelCount e →
      (fileNum (translatedImage bs e base) (64 * k) 8 = bits (storedDesc bs e k) 63 0 ∨ (descReloc (relocsOf bs e) k 0).isSome = true) ∧
      (∀ r, descReloc (relocsOf bs e) k 1 = some r →
        fileNum (translatedImage bs e base) (64 * k + 8) 8 = (base + 64 * kernelCount e + r.addend) % 2 ^ 64) ∧
      (translatedImage bs e base).drop (64 * kernelCount e) = (bs.drop e.code.off).take e.code.size

/-- Home caches (07 R148-R152), registers that read back (00 R5; 11), and portable images (12 R286, R290), as the three claims say. -/
def Obligations.HomesRegistersAndImages : Prop := Claims.HomeCaches ∧ Claims.Readback ∧ Claims.PortableImages

/-- EXIT, SPAWN, SWRITE and the slice's own events complete (13 R322; 14 R346, R350; 11 R255, R256, R260, R261, R269; 07 R171): each answers
a next state with its effect, for every state and operands that meet the conditions named. -/
def Obligations.ControlFormsComplete : Prop :=
  (∀ (s : State) (w : Warp), OnTurn s w →
    (∀ q, poisonedTable w [] (guardRegA q) = false → ∃ t w', exec (.exit q) s = .next t ∧ getWarp t s.cur.1 s.cur.2 = some w' ∧
      w'.exited = w.exited ||| activeA w q ∧ w'.retired = w.retired + 1) ∧
    (∀ (q : Option APre) (a b : BitVec 6),
      let act := activeA w q
      let e := 2 * a.toNat
      let r := 2 * b.toNat
      let entry := fun l => (readLane w (e + 1) l).toNat * 2 ^ 32 + (readLane w e l).toNat
      Readable w act 0 [e, e + 1, r, r + 1] [] [e, e + 1, r, r + 1] [] (guardRegA q) → w.det = false →
      (∀ l, act.getLsbD l = true → entry l % 4 = 0 ∧ canonical (BitVec.ofNat 64 (entry l)) = true) →
      StoresCanLand s s.cur.1 w.slice → (getCore s s.cur.1).bins.length + countLanes act ≤ 16 →
      ∃ t w', exec (.spawn q a b) s = .next t ∧ getWarp t s.cur.1 s.cur.2 = some w' ∧ MovedOn w w' (lenOf q) ∧ w'.placed = 0) ∧
    (∀ (a : BitVec 6) (sel : BitVec 13), poisonedTable w [a.toNat] [] = false → specialAccepts sel.toNat (readS w a.toNat) = true →
      ∃ t w', exec (.swrite a sel) s = .next t ∧ getWarp t s.cur.1 s.cur.2 = some w' ∧ w'.retired = w.retired + 1)) ∧
  ∀ (s : State) (sl : Nat), accepts s = true →
    (vfEnabled s sl = true →
      (∃ t, exec (.sliceReset sl) s = .next t ∧ (getSlice t sl).tdi = .error ∧ (getSlice t sl).slstat = 0 ∧ EventSeen t sl 0) ∧
      (∃ t, exec (.flrVf sl) s = .next t ∧ (getSlice t sl).tdi = .error ∧ EventSeen t sl 0) ∧
      (∀ v : DWord, v.getLsbD 0 = true → (getSlice s sl).s1inv = none → ∃ t, exec (.s1Invalidation sl v) s = .next t ∧
        (getSlice t sl).s1inv = some (v.toNat / 2 ^ 16 % 16)) ∧
      (∀ ctx, ctx < 16 → (getCtx s sl ctx).state = 0 → ∃ t, exec (.contextCreate sl ctx) s = .next t ∧ (getCtx t sl ctx).state = 1) ∧
      (∀ ctx, ((getCtx s sl ctx).state = 1 ∨ (getCtx s sl ctx).state = 3) → ∃ t, exec (.contextRemove sl ctx) s = .next t ∧
        (getCtx t sl ctx).state = 0) ∧
      (∀ v : DWord, ((getSlice s sl).evhead - v).toNat ≤ 64 → ∃ t, exec (.evtailWrite sl v) s = .next t ∧ (getSlice t sl).evtail = v) ∧
      (∀ v : DWord, ∃ t, exec (.evstatWrite sl v) s = .next t ∧ ∀ b, b < 16 → b ≠ 9 →
        (getSlice t sl).evstat.getLsbD b = ((getSlice s sl).evstat.getLsbD b && !v.getLsbD b))) ∧
    (∀ p : Port, ∃ t, exec (.flrPf0 p) s = .next t ∧ ∀ e, e ∈ t.aer ↔ e ∈ s.aer ∧ (e.port ≠ some p ∨ e.slice ≠ none)) ∧
    (∃ t, exec (.s2Invalidation sl) s = .next t ∧ (getSlice t sl).s2busy = true) ∧
    ((getSlice s sl).s2busy = true → ∃ t, exec (.invalidationComplete sl true) s = .next t ∧ (getSlice t sl).s2busy = false ∧
      ∀ e, e ∈ t.tlb ↔ e ∈ s.tlb ∧ ¬(e.slice = sl ∧ e.stage2 = true)) ∧
    (∀ c, (getSlice s sl).s1inv = some c → ∃ t, exec (.invalidationComplete sl false) s = .next t ∧ (getSlice t sl).s1inv = none ∧
      ∀ e, e ∈ t.tlb ↔ e ∈ s.tlb ∧ ¬(e.slice = sl ∧ e.stage2 = false ∧ e.ctx = c))

/-- Vector integer instructions: their encodings and their results (15 R372, R375, R381; 16 R400, R401). -/
def Obligations.VectorIntegers : Prop := Claims.VectorIntegerWords ∧ Claims.VectorIntegerResults

/-- Vector logic, shifts and fields, and moves between registers: their encodings and their results (15 R376, R380; 16 R402, R403, R410,
R412). -/
def Obligations.VectorLogicAndMoves : Prop := Claims.VectorLogicWords ∧ Claims.VectorLogicResults ∧ Claims.VectorMoveResults

/-- Comparisons and predicates: their encodings and their results (13 R321; 14 R340; 15 R382, R383). -/
def Obligations.Predicates : Prop := Claims.PredicateWords ∧ Claims.PredicateResults

/-- Uniform integer instructions: their encodings and their results (15 R361, R362). -/
def Obligations.UniformIntegers : Prop := Claims.UniformWords ∧ Claims.UniformResults

/-- The descriptor table (07 R153-R155; 13; 16) and the accumulator tiles (06 R142; 13), as the two claims say. -/
def Obligations.TablesAndTiles : Prop := Claims.DescriptorTable ∧ Claims.Accumulators

/-- Fences (08 R180-R187) and cache operations (07 R149, R150; 13), as the two claims say. -/
def Obligations.FencesAndCaches : Prop := Claims.Fences ∧ Claims.CacheOperations

/-- The events of a core's scheduler: path yields and warp moves (02 R29; 03 R62-R64), bank swaps and spills (10 R240; 03 R65; 06 R145),
and what else happens to a core (05 R112; 02 R38; 03 R54). -/
def Obligations.SchedulerEvents : Prop := Claims.WarpMovement ∧ Claims.BankSwaps ∧ Claims.CoreEvents

/-- Retired stores on their way home (03 R49, R50; 08 R178) and the deferred errors of those that are refused (03 R51; 10 R233; 11 R256).
-/
def Obligations.StoresAndDeferredErrors : Prop := Claims.StoresReachHome ∧ Claims.DeferredErrors

/-- The steps of the gather units, copy engines and collective engines (07 R159-R163; 09 R216, R217; 13 R300, R306; 11 R272). -/
def Obligations.EngineSteps : Prop := Claims.GatherAndCopySteps ∧ Claims.ActivationTables ∧ Claims.Collectives

/-- Completion reports (07 R164, R167; 06 R141) and power permits (06 R140, R436; 01 R12). -/
def Obligations.CompletionsAndPermits : Prop := Claims.CompletionReports ∧ Claims.PowerPermits

/-- The matrix engine: weight loads (06 R117-R122) and passes (06 R121-R141). -/
def Obligations.MatrixEngine : Prop := Claims.WeightLoads ∧ Claims.MatrixPasses ∧ Claims.ResidueChecks

/-- Stops of a context's units with their records (10 R231-R236) and per-core resets (10 R239). -/
def Obligations.StopsAndCoreResets : Prop := Claims.UnitsStop ∧ Claims.CoreResets

/-- Quiesces (10 R242, R247) and forced saves (10 R243, R244; 11 R263). -/
def Obligations.QuiesceAndSave : Prop := Claims.Quiesces ∧ Claims.ForcedSaves

/-- Resumes and drops (10 R232; 11 R261, R264) and the commands that move a context between modules (11 R263-R265). -/
def Obligations.ResumeAndMigration : Prop := Claims.ResumesAndDrops ∧ Claims.MigrationCommands

/-- Slice resets (11 R255, R269, R270) and the slice's control registers (11 R256, R260, R261; 07 R171). -/
def Obligations.SliceControl : Prop := Claims.SliceResets ∧ Claims.SliceRegisters

/-- Mailboxes with their fetches (09 R195-R197) and the steps of records (09 R201-R206). -/
def Obligations.MailboxesAndRecords : Prop := Claims.MailboxFetches ∧ Claims.RecordSteps

/-- Messages to resident grids (09 R211) and the completion of records (09 R199, R203-R206). -/
def Obligations.MessagesAndCompletion : Prop := Claims.Messages ∧ Claims.RecordCompletion

/-- Launches (09 R200, R204; 04 R91), placement (09 R207-R213) and the end of teams and grids (13 R323; 09 R204, R214, R215). -/
def Obligations.LaunchesAndPlacement : Prop := Claims.Launches ∧ Claims.Placement ∧ Claims.TeamsAndGridsEnd

/-- The module's resets (01 R14-R17), its links (11 R258, R274), and its sensors, power and errors (01 R11-R13; 11 R257, R274). -/
def Obligations.ModuleHardware : Prop := Claims.ModuleResets ∧ Claims.Links ∧ Claims.SensorsAndErrors

/-- The layout semaphore (11 R249) and the two phases of a layout (11 R250-R254). -/
def Obligations.LayoutControl : Prop := Claims.Semaphore ∧ Claims.LayoutPhases

/-- Firmware and debug (11 R280-R282), and the sessions, interface and keys of a slice (11 R265-R276). -/
def Obligations.TrustControl : Prop := Claims.FirmwareAndDebug ∧ Claims.Sessions

/-- Accesses of hosts and peers with routing (08 R192; 11 R259, R275, R278), and the translation cache and register writes (12 R292; 00
R5). -/
def Obligations.HostAndPeers : Prop := Claims.PeersAndHosts ∧ Claims.CacheAndRegisters

/-- The module after step 6 of its start (01 R15; 11 R249-R251, R255): every SRAM and memory byte reads zero, every granule is unassigned,
every VF is disabled, the semaphore is free with token 0, no layout command is open, and no mailbox, context or grid exists. -/
def Obligations.ResetState : Prop :=
  (∀ a, mread State.reset.mem a = 0) ∧ (∀ n, getCore State.reset n = {}) ∧ (∀ g, g < 16 → sliceOfGranule State.reset g = none) ∧
  (∀ sl, vfEnabled State.reset sl = false) ∧ State.reset.laysemHeld = false ∧ State.reset.laysemToken = 0 ∧
  State.reset.layPhase = 0 ∧ State.reset.layResult = 0 ∧ State.reset.layGen = 0 ∧ State.reset.semtake = 1000000000 ∧
  State.reset.hperiod = 1000000000 ∧ (∀ sl, (getSlice State.reset sl).qbudget = 200000) ∧
  (∀ sl c, (getCtx State.reset sl c).state = 0) ∧ (∀ sl m, (getMbox State.reset sl m).enable = false) ∧
  State.reset.ops = [] ∧ State.reset.deferred = [] ∧ accepts State.reset = true

/-- The invariant of `InvariantKept` holds at reset (01 R15; 07 R171). -/
def Obligations.ResetInvariant : Prop := MemoryOk State.reset ∧ TlbOk State.reset

/-- Words written out from the encodings of 15 and 16 stand for their instructions: the example words of the tables, one of each kind. -/
def Obligations.DecodedWords : Prop :=
  decode 0x1B0C2052 0 = .ok (.vcmp none 2 3 4 5 2) ∧ decode 0x80188280 0 = .ok (.uadd 3 4 5) ∧
  decode 0x7E000100 0x02143075 = .ok (.vmad (some { guard := 0, neg := false, zero := false, rnd := 0, sat := 0, vc := 8 }) 5 6 7) ∧
  decode 0x8E180000 0x12345678 = .ok (.ulit 3 0 0x12345678) ∧
  decode 0x94288FFF 0 = .ok (.ust 5 4 3 0x3FF) ∧
  decode 0x92288806 0 = .ok (.uld 5 4 2 6) ∧
  decode 0x96308918 0 = .ok (.uatom 6 4 9 0 3) ∧
  decode 0x1017FFFF 0 = .ok (.vmovi none 5 0x3FFFF) ∧
  decode 0x14143003 0 = .ok (.vexp2 none 5 6) ∧
  decode 0x1C143073 0 = .ok (.vsel none 5 6 7 3) ∧
  decode 0x20321408 0 = .ok (.plog none 3 4 5 8) ∧
  decode 0x281C412A 0 = .ok (.gath none 7 4 9 2) ∧
  decode 0x2A1C1901 0 = .ok (.drdTrp none 7 3 16) ∧
  decode 0x2C0C2051 0 = .ok (.shfl none 3 4 5 0 1) ∧
  decode 0x2E0C1000 0 = .ok (.vred none 3 2 0 0) ∧
  decode 0x32141804 0 = .ok (.vote none 5 3 1 0) ∧
  decode 0x36008000 0 = .ok (.mxissue none 16) ∧
  decode 0x38143001 0 = .ok (.accwr none 5 6) ∧
  decode 0xA007E000 0 = .ok .ret ∧
  decode 0xA200A180 0 = .ok (.bararr 5 3) ∧
  decode 0xA4200006 0 = .ok (.setw 4 1 2) ∧
  decode 0xAA008007 0 = .ok (.swrite 4 7) ∧
  decode 0xAC000005 0 = .ok (.trap 5) ∧
  decode 0xB4000802 0 = .ok (.waitc 1 2) ∧
  decode 0xBC054900 0 = .ok (.tdset 2 5 9) ∧
  decode 0xC4040240 0 = .ok (.cpy 2 1 8) ∧
  decode 0xC6008300 0 = .ok (.wload 0 4 6) ∧
  decode 0xCE003800 0 = .ok (.accz 0 7) ∧
  decode 0xD430E200 0 = .ok (.oapp 6 7 1) ∧
  decode 0xDA280002 0 = .ok (.mbxpop 5 2) ∧
  decode 0xDC288500 0 = .ok (.cwb 5 4 5) ∧
  decode 0x98001200 0 = .ok (.fence 4 2)

/-- A step runs the decoded instruction (02 R28, R29; 03 R43, R54; 04 R67, R69, R75; 10 R220, R222, R224-R226, R228, R229, R245; log 1): when
the turn is a warp's that can run, with no yield due, an event trap that is due comes first where TM is clear: quiesce, or the warp's hold
where its kernel has no handler for it, then regrant, then the thresholds in ascending class, then the step trap; but for a quiesce trap,
none while a dispatched VGROW waits. With none due, a poisoned PC and a fetch that fails are faults, a fetch whose port does not answer
waits, and where the bytes at its path's PC decode to an instruction, the step is that instruction's execution, by the path selected, once
its head has its dispatch number. -/
def Obligations.StepRunsDecoded : Prop :=
  ∀ (s : State) (core slot : Nat) (w : Warp) (rest : List Turn),
    (s.agenda = .warp core slot :: rest ∨ (s.agenda = [] ∧ rest = [] ∧ nextMove s = none ∧ nextWarp s = some (core, slot))) →
    getWarp s core slot = some w → warpCanRun s core w = true → yieldDue (ensurePath w) = false →
    let w1 := ensurePath w
    let s0 := { putWarp { s with agenda := rest } core slot w1 with cur := (core, slot) }
    let team := getTeam s0 core w1.team
    let s1 := (dispatchHead { s := s0, core := core, slot := slot, w := w1, t := team }).s
    let pc := pathPc w1
    let event := fun (w2 : Warp) (code info : Nat) (handler : DWord) => ∃ t, step s = .next t ∧
      if handler = 0 then Faulted s0 t w2 code 0 info true w1.path 0 else Trapped s0 t w2 code info w1.path handler
    let faults := fun (code sub : Nat) (lanes : LaneMask) (addr : DWord) => ∃ t, step s = .next t ∧ Faulted s1 t w1 code sub 0 false lanes addr
    (w.tm = false →
      (w.qpend = true → if hasQuiesce team then event { w1 with qpend := false, inQuiesce := true } 8 0 team.quiesceVa
        else step s = .next (putWarp s0 core slot { w1 with qpend := false, held := true })) ∧
      (w.qpend = false → (w.dispatch = none ∨ ∀ a b s2, meet s0 core w.slice w.ctx pc ≠ .instr (.vgrow a b) s2) →
        (w.regrant = true → event { w1 with regrant := false } 4 0 w.trapBase) ∧
        (∀ cls more, w.regrant = false → w.pendThr = cls :: more → cls < 8 → event { w1 with pendThr := more } 7 cls w.trapBase) ∧
        (w.regrant = false → w.pendThr = [] → w.stepDue = true → event { w1 with stepDue := false } 3 0 w.trapBase))) ∧
    ((w.tm = true ∨ (w.qpend = false ∧ w.regrant = false ∧ w.pendThr = [] ∧ w.stepDue = false)) →
      (poisonedPc w1 ≠ 0 → faults 0x26 2 (poisonedPc w1) 0) ∧
      (poisonedPc w1 = 0 →
        (translate s1 (fetchUnit core) w.slice w.ctx pc .fetch = .error .waits → step s = .next s1) ∧
        (∀ st kind ia, kind ≤ 6 → translate s1 (fetchUnit core) w.slice w.ctx pc .fetch = .error (.fail st kind ia) →
          faults (if kind ≤ 2 then 0x23 else 0x24) (st.toNat + kind * 2 + 32) w1.path pc) ∧
        (∀ tag, translate s1 (fetchUnit core) w.slice w.ctx pc .fetch = .error (.poison tag) → faults 0x25 2 w1.path pc) ∧
        (∀ k s2, translate s1 (fetchUnit core) w.slice w.ctx pc .fetch = .ok (k, s2) →
          let w0 := bytesNat (freshBytes s2 w.slice k 4)
          ((isPoisoned s2 k = true ∨ reach s2 w.slice k = .refused) → faults 0x25 1 w1.path pc) ∧
          (isPoisoned s2 k = false → reach s2 w.slice k = .waits → step s = .next s1) ∧
          (isPoisoned s2 k = false → reach s2 w.slice k = .ok →
            (∀ i, needsSecond w0 = false → decode w0 0 = .ok i → step s = exec i s2) ∧
            (∀ i k3 s3, needsSecond w0 = true → translate s2 (fetchUnit core) w.slice w.ctx (pc + 4) .fetch = .ok (k3, s3) →
              isPoisoned s3 k3 = false → reach s3 w.slice k3 = .ok → decode w0 (bytesNat (freshBytes s3 w.slice k3 4)) = .ok i →
              step s = exec i s3) ∧
            (∀ e, needsSecond w0 = false → decode w0 0 = .error e → step s = exec (.illegalInstruction e.sub) s2)))))

/-- Decoding undoes encoding (04 R72-R81; 15; 16): every well-formed instruction that has words is read back from them, with every operand at
every value its encoding admits, whatever follows it. -/
def Obligations.DecodeEncode : Prop :=
  ∀ (i : Instr), i.hasWords = true → wellFormed i = true →
    decodeWords (encode i) = .ok i ∧ (∀ w, w ∈ encode i → w < 2 ^ 32) ∧
    ((encode i).length = if needsSecond ((encode i).headD 0) then 2 else 1) ∧
    ∀ rest, decodeBytes ((encode i).flatMap wordBytes ++ rest) = .ok (i, rest)

/-- What every step keeps (07 R169, R171; log 4): memory stays in its canonical form, and every kept translation maps whole pages. -/
def Obligations.InvariantKept : Prop :=
  ∀ (s t : State), MemoryOk s → TlbOk s → step s = .next t → MemoryOk t ∧ TlbOk t

/-- No turn of the module's own agents stops the machine: every instruction and event answers a next state, but for a warp's instruction that
is executed where no warp holds the turn; so a step whose turn is a warp's, a cache's or an event's always answers a next state. -/
def Obligations.StepsGoOn : Prop :=
  (∀ (i : Instr) (s : State), (∃ t, exec i s = .next t) ∨
    (exec i s = .fault .noWarp ∧ needsWarp i = true ∧ ∀ w, getWarp s s.cur.1 s.cur.2 = some w → w.path = 0)) ∧
  ∀ (s : State), (∀ t rest, s.agenda = t :: rest → turnOk t = true) → ∃ t, step s = .next t
end

