-- ==== Sys2Proof/Laws/Tables.lean ====
section
/-!
SUPPORT. Laws of tables, of memory and its canonical form, and of lane sets.
-/
namespace Sys2Proof.Machine

@[simp] theorem tfind_nil {α : Type} (k : Nat) : tfind ([] : Tbl α) k = none := rfl

@[simp] theorem tget_nil {α : Type} (d : α) (k : Nat) : tget d ([] : Tbl α) k = d := rfl

@[simp] theorem tfind_tset_same {α : Type} (t : Tbl α) (k : Nat) (a : α) : tfind (tset t k a) k = some a := by
  induction t with
  | nil => simp [tset, tfind]
  | cons e t ih =>
    obtain ⟨i, b⟩ := e
    by_cases h : i = k
    · simp [tset, tfind, h]
    · by_cases g : k < i <;> simp [tset, tfind, h, g, ih]

@[simp] theorem tfind_tset_other {α : Type} (t : Tbl α) {j k : Nat} (a : α) (h : j ≠ k) : tfind (tset t k a) j = tfind t j := by
  induction t with
  | nil => simp [tset, tfind, h.symm]
  | cons e t ih =>
    obtain ⟨i, b⟩ := e
    by_cases g : i = k
    · subst g; simp [tset, tfind, h.symm]
    · by_cases l : k < i
      · simp [tset, tfind, g, l, h.symm]
      · simp only [tset, g, l, if_false, tfind, ih]

theorem tfind_tset {α : Type} (t : Tbl α) (j k : Nat) (a : α) : tfind (tset t k a) j = if j = k then some a else tfind t j := by
  by_cases h : j = k <;> simp [h]

@[simp] theorem tget_tset_same {α : Type} (d : α) (t : Tbl α) (k : Nat) (a : α) : tget d (tset t k a) k = a := by simp [tget]

@[simp] theorem tget_tset_other {α : Type} (d : α) (t : Tbl α) {j k : Nat} (a : α) (h : j ≠ k) :
    tget d (tset t k a) j = tget d t j := by simp [tget, h]

theorem tget_tset {α : Type} (d : α) (t : Tbl α) (j k : Nat) (a : α) : tget d (tset t k a) j = if j = k then a else tget d t j := by
  by_cases h : j = k <;> simp [h]

@[simp] theorem tfind_tdel_same {α : Type} (t : Tbl α) (k : Nat) : tfind (tdel t k) k = none := by
  induction t with
  | nil => rfl
  | cons e t ih =>
    obtain ⟨i, b⟩ := e
    by_cases h : i = k <;> simp [tdel, tfind, h, ih]

@[simp] theorem tfind_tdel_other {α : Type} (t : Tbl α) {j k : Nat} (h : j ≠ k) : tfind (tdel t k) j = tfind t j := by
  induction t with
  | nil => rfl
  | cons e t ih =>
    obtain ⟨i, b⟩ := e
    by_cases g : i = k
    · subst g; simp [tdel, tfind, h.symm, ih]
    · simp [tdel, tfind, g, ih]

@[simp] theorem tfind_tmap {α : Type} (t : Tbl α) (f : Nat → α → α) (k : Nat) : tfind (tmap t f) k = (tfind t k).map (f k) := by
  induction t with
  | nil => rfl
  | cons e t ih =>
    obtain ⟨i, b⟩ := e
    by_cases h : i = k
    · subst h; simp [tmap, tfind]
    · simpa [tmap, tfind, h] using ih

theorem tfind_mem {α : Type} {t : Tbl α} {k : Nat} {a : α} (h : tfind t k = some a) : (k, a) ∈ t := by
  induction t with
  | nil => simp at h
  | cons e t ih =>
    obtain ⟨i, b⟩ := e
    by_cases g : i = k
    · simp only [tfind, g, if_true, Option.some.injEq] at h
      simp [g, h]
    · simp only [tfind, g, if_false] at h
      exact List.mem_cons_of_mem _ (ih h)

@[simp] theorem mread_mclear_same (m : Memory) (a : Nat) : mread (mclear m a) a = 0 := by
  induction m with
  | nil => rfl
  | cons e m ih =>
    obtain ⟨i, b⟩ := e
    by_cases h : i = a <;> simp [mclear, mread, h, ih]

@[simp] theorem mread_mclear_other (m : Memory) {a k : Nat} (h : k ≠ a) : mread (mclear m a) k = mread m k := by
  induction m with
  | nil => rfl
  | cons e m ih =>
    obtain ⟨i, b⟩ := e
    by_cases g : i = a
    · subst g; simp [mclear, mread, h.symm, ih]
    · simp [mclear, mread, g, ih]

@[simp] theorem mread_mput_same (m : Memory) (a : Nat) (v : Byte) : mread (mput m a v) a = v := by
  induction m with
  | nil => simp [mput, mread]
  | cons e m ih =>
    obtain ⟨i, b⟩ := e
    by_cases h : i = a
    · simp [mput, mread, h]
    · by_cases g : a < i <;> simp [mput, mread, h, g, ih]

@[simp] theorem mread_mput_other (m : Memory) {a k : Nat} (v : Byte) (h : k ≠ a) : mread (mput m a v) k = mread m k := by
  induction m with
  | nil => simp [mput, mread, h.symm]
  | cons e m ih =>
    obtain ⟨i, b⟩ := e
    by_cases g : i = a
    · subst g; simp [mput, mread, h.symm]
    · by_cases l : a < i
      · simp [mput, mread, g, l, h.symm]
      · simp only [mput, g, l, if_false, mread, ih]

/-- A byte written is read back. -/
@[simp] theorem mread_mwrite_same (m : Memory) (a : Nat) (v : Byte) : mread (mwrite m a v) a = v := by
  unfold mwrite
  split
  · next h => rw [mread_mclear_same, h]
  · exact mread_mput_same m a v

/-- A write leaves every other byte alone. -/
@[simp] theorem mread_mwrite_other (m : Memory) {a k : Nat} (v : Byte) (h : k ≠ a) : mread (mwrite m a v) k = mread m k := by
  unfold mwrite
  split
  · exact mread_mclear_other m h
  · exact mread_mput_other m v h

/-- Bytes outside those written are left alone. -/
theorem mread_mwriteN_outside (bs : List Byte) (m : Memory) (a k : Nat) (h : k < a ∨ a + bs.length ≤ k) :
    mread (mwriteN m a bs) k = mread m k := by
  induction bs generalizing m a with
  | nil => rfl
  | cons b bs ih =>
    simp only [List.length_cons] at h
    rw [mwriteN, ih _ _ (by omega), mread_mwrite_other]
    omega

theorem wfFrom_lower {m : Memory} {lo hi : Nat} (h : lo ≤ hi) (w : Memory.wfFrom hi m = true) : Memory.wfFrom lo m = true := by
  cases m with
  | nil => rfl
  | cons e m =>
    obtain ⟨i, b⟩ := e
    simp only [Memory.wfFrom, Bool.and_eq_true, decide_eq_true_eq] at w ⊢
    exact ⟨⟨by omega, w.1.2⟩, w.2⟩

theorem wfFrom_mclear (m : Memory) (lo a : Nat) (w : Memory.wfFrom lo m = true) : Memory.wfFrom lo (mclear m a) = true := by
  induction m generalizing lo with
  | nil => rfl
  | cons e m ih =>
    obtain ⟨i, b⟩ := e
    simp only [Memory.wfFrom, Bool.and_eq_true, decide_eq_true_eq] at w
    by_cases h : i = a
    · simp only [mclear, h, if_true]
      exact wfFrom_lower (by omega) (ih _ w.2)
    · simp only [mclear, h, if_false, Memory.wfFrom, Bool.and_eq_true, decide_eq_true_eq]
      exact ⟨w.1, ih _ w.2⟩

theorem wfFrom_mput (m : Memory) (lo a : Nat) (v : Byte) (hv : v ≠ 0) (ha : lo ≤ a) (w : Memory.wfFrom lo m = true) :
    Memory.wfFrom lo (mput m a v) = true := by
  induction m generalizing lo with
  | nil =>
    simp only [mput, Memory.wfFrom, Bool.and_true, Bool.and_eq_true, decide_eq_true_eq]
    exact ⟨ha, by simpa using hv⟩
  | cons e m ih =>
    obtain ⟨i, b⟩ := e
    simp only [Memory.wfFrom, Bool.and_eq_true, decide_eq_true_eq] at w
    by_cases h : i = a
    · subst h
      simp only [mput, if_true, Memory.wfFrom, Bool.and_eq_true, decide_eq_true_eq]
      exact ⟨⟨ha, by simpa using hv⟩, w.2⟩
    · by_cases l : a < i
      · simp only [mput, h, l, if_false, if_true, Memory.wfFrom, Bool.and_eq_true, decide_eq_true_eq]
        exact ⟨⟨ha, by simpa using hv⟩, ⟨by omega, w.1.2⟩, w.2⟩
      · simp only [mput, h, l, if_false, Memory.wfFrom, Bool.and_eq_true, decide_eq_true_eq]
        exact ⟨w.1, ih _ (by omega) w.2⟩

/-- A write keeps the canonical form. -/
theorem wf_mwrite (m : Memory) (a : Nat) (v : Byte) (w : Memory.wf m = true) : Memory.wf (mwrite m a v) = true := by
  unfold mwrite
  split
  · exact wfFrom_mclear m 0 a w
  · next h => exact wfFrom_mput m 0 a v h (Nat.zero_le a) w

/-- Writes of bytes in turn keep the canonical form. -/
theorem wf_mwriteN (bs : List Byte) (m : Memory) (a : Nat) (w : Memory.wf m = true) : Memory.wf (mwriteN m a bs) = true := by
  induction bs generalizing m a with
  | nil => exact w
  | cons b bs ih => exact ih _ _ (wf_mwrite m a b w)

/-- Writes of listed bytes keep the canonical form. -/
theorem wf_foldl_mwrite (bs : Tbl Byte) (m : Memory) (w : Memory.wf m = true) :
    Memory.wf (bs.foldl (fun m b => mwrite m b.1 b.2) m) = true := by
  induction bs generalizing m with
  | nil => exact w
  | cons b bs ih => exact ih _ (wf_mwrite m b.1 b.2 w)

theorem wfFrom_filter (m : Memory) (lo : Nat) (p : Host.Cell → Bool) (w : Memory.wfFrom lo m = true) :
    Memory.wfFrom lo (m.filter p) = true := by
  induction m generalizing lo with
  | nil => rfl
  | cons e m ih =>
    obtain ⟨i, b⟩ := e
    simp only [Memory.wfFrom, Bool.and_eq_true, decide_eq_true_eq] at w
    by_cases h : p (i, b) = true
    · simp only [List.filter_cons, h, if_true, Memory.wfFrom, Bool.and_eq_true, decide_eq_true_eq]
      exact ⟨w.1, ih _ w.2⟩
    · simp only [List.filter_cons, h]
      exact wfFrom_lower (by omega) (ih _ w.2)

/-- Cells taken out keep the canonical form. -/
theorem wf_filter (m : Memory) (p : Host.Cell → Bool) (w : Memory.wf m = true) : Memory.wf (m.filter p) = true :=
  wfFrom_filter m 0 p w

@[simp] theorem length_laneList {α : Type} (f : Nat → α) : (laneList f).length = 64 := by simp [laneList]

/-- A lane of a list made lane by lane. -/
@[simp] theorem getD_laneList {α : Type} (f : Nat → α) (d : α) {l : Nat} (h : l < 64) : (laneList f).getD l d = f l := by
  simp [laneList, h]

@[simp] theorem laneGet_laneList (f : Nat → Word) {l : Nat} (h : l < 64) : laneGet (laneList f) l = f l := getD_laneList f 0 h

end Sys2Proof.Machine
end

