-- ==== Sys2Proof/Laws/State.lean ====
section
/-!
SUPPORT. What each update of the state leaves in each field, and what the accessors read after it.
-/
namespace Sys2Proof.Machine

@[simp] theorem putCore_corecap (s : State) (n : Nat) (c : Core) : (putCore s n c).corecap = s.corecap := rfl
@[simp] theorem putCore_mem (s : State) (n : Nat) (c : Core) : (putCore s n c).mem = s.mem := rfl
@[simp] theorem putCore_poison (s : State) (n : Nat) (c : Core) : (putCore s n c).poison = s.poison := rfl
@[simp] theorem putCore_badTags (s : State) (n : Nat) (c : Core) : (putCore s n c).badTags = s.badTags := rfl
@[simp] theorem putCore_wbErr (s : State) (n : Nat) (c : Core) : (putCore s n c).wbErr = s.wbErr := rfl
@[simp] theorem putCore_marks (s : State) (n : Nat) (c : Core) : (putCore s n c).marks = s.marks := rfl
@[simp] theorem putCore_l2 (s : State) (n : Nat) (c : Core) : (putCore s n c).l2 = s.l2 := rfl
@[simp] theorem putCore_llc (s : State) (n : Nat) (c : Core) : (putCore s n c).llc = s.llc := rfl
@[simp] theorem putCore_slices (s : State) (n : Nat) (c : Core) : (putCore s n c).slices = s.slices := rfl
@[simp] theorem putCore_engines (s : State) (n : Nat) (c : Core) : (putCore s n c).engines = s.engines := rfl
@[simp] theorem putCore_ops (s : State) (n : Nat) (c : Core) : (putCore s n c).ops = s.ops := rfl
@[simp] theorem putCore_deferred (s : State) (n : Nat) (c : Core) : (putCore s n c).deferred = s.deferred := rfl
@[simp] theorem putCore_nextOp (s : State) (n : Nat) (c : Core) : (putCore s n c).nextOp = s.nextOp := rfl
@[simp] theorem putCore_tlb (s : State) (n : Nat) (c : Core) : (putCore s n c).tlb = s.tlb := rfl
@[simp] theorem putCore_sensors (s : State) (n : Nat) (c : Core) : (putCore s n c).sensors = s.sensors := rfl
@[simp] theorem putCore_shares (s : State) (n : Nat) (c : Core) : (putCore s n c).shares = s.shares := rfl
@[simp] theorem putCore_nextPermit (s : State) (n : Nat) (c : Core) : (putCore s n c).nextPermit = s.nextPermit := rfl
@[simp] theorem putCore_laysemHeld (s : State) (n : Nat) (c : Core) : (putCore s n c).laysemHeld = s.laysemHeld := rfl
@[simp] theorem putCore_laysemPort (s : State) (n : Nat) (c : Core) : (putCore s n c).laysemPort = s.laysemPort := rfl
@[simp] theorem putCore_laysemToken (s : State) (n : Nat) (c : Core) : (putCore s n c).laysemToken = s.laysemToken := rfl
@[simp] theorem putCore_tokenCtr (s : State) (n : Nat) (c : Core) : (putCore s n c).tokenCtr = s.tokenCtr := rfl
@[simp] theorem putCore_semtake (s : State) (n : Nat) (c : Core) : (putCore s n c).semtake = s.semtake := rfl
@[simp] theorem putCore_layGen (s : State) (n : Nat) (c : Core) : (putCore s n c).layGen = s.layGen := rfl
@[simp] theorem putCore_layResult (s : State) (n : Nat) (c : Core) : (putCore s n c).layResult = s.layResult := rfl
@[simp] theorem putCore_layBad (s : State) (n : Nat) (c : Core) : (putCore s n c).layBad = s.layBad := rfl
@[simp] theorem putCore_layPhase (s : State) (n : Nat) (c : Core) : (putCore s n c).layPhase = s.layPhase := rfl
@[simp] theorem putCore_stagedMap (s : State) (n : Nat) (c : Core) : (putCore s n c).stagedMap = s.stagedMap := rfl
@[simp] theorem putCore_stagedCfg (s : State) (n : Nat) (c : Core) : (putCore s n c).stagedCfg = s.stagedCfg := rfl
@[simp] theorem putCore_granMap (s : State) (n : Nat) (c : Core) : (putCore s n c).granMap = s.granMap := rfl
@[simp] theorem putCore_sliceCfg (s : State) (n : Nat) (c : Core) : (putCore s n c).sliceCfg = s.sliceCfg := rfl
@[simp] theorem putCore_journal (s : State) (n : Nat) (c : Core) : (putCore s n c).journal = s.journal := rfl
@[simp] theorem putCore_resetPending (s : State) (n : Nat) (c : Core) : (putCore s n c).resetPending = s.resetPending := rfl
@[simp] theorem putCore_pkgid (s : State) (n : Nat) (c : Core) : (putCore s n c).pkgid = s.pkgid := rfl
@[simp] theorem putCore_hostKgen (s : State) (n : Nat) (c : Core) : (putCore s n c).hostKgen = s.hostKgen := rfl
@[simp] theorem putCore_codeKgen (s : State) (n : Nat) (c : Core) : (putCore s n c).codeKgen = s.codeKgen := rfl
@[simp] theorem putCore_pfSessions (s : State) (n : Nat) (c : Core) : (putCore s n c).pfSessions = s.pfSessions := rfl
@[simp] theorem putCore_hperiod (s : State) (n : Nat) (c : Core) : (putCore s n c).hperiod = s.hperiod := rfl
@[simp] theorem putCore_xcbase (s : State) (n : Nat) (c : Core) : (putCore s n c).xcbase = s.xcbase := rfl
@[simp] theorem putCore_xcport (s : State) (n : Nat) (c : Core) : (putCore s n c).xcport = s.xcport := rfl
@[simp] theorem putCore_xcsize (s : State) (n : Nat) (c : Core) : (putCore s n c).xcsize = s.xcsize := rfl
@[simp] theorem putCore_xentries (s : State) (n : Nat) (c : Core) : (putCore s n c).xentries = s.xentries := rfl
@[simp] theorem putCore_fwaddr (s : State) (n : Nat) (c : Core) : (putCore s n c).fwaddr = s.fwaddr := rfl
@[simp] theorem putCore_fwstat (s : State) (n : Nat) (c : Core) : (putCore s n c).fwstat = s.fwstat := rfl
@[simp] theorem putCore_fwStaged (s : State) (n : Nat) (c : Core) : (putCore s n c).fwStaged = s.fwStaged := rfl
@[simp] theorem putCore_fwActive (s : State) (n : Nat) (c : Core) : (putCore s n c).fwActive = s.fwActive := rfl
@[simp] theorem putCore_fwMin (s : State) (n : Nat) (c : Core) : (putCore s n c).fwMin = s.fwMin := rfl
@[simp] theorem putCore_dbgnonce (s : State) (n : Nat) (c : Core) : (putCore s n c).dbgnonce = s.dbgnonce := rfl
@[simp] theorem putCore_dbgtoken (s : State) (n : Nat) (c : Core) : (putCore s n c).dbgtoken = s.dbgtoken := rfl
@[simp] theorem putCore_dbglen (s : State) (n : Nat) (c : Core) : (putCore s n c).dbglen = s.dbglen := rfl
@[simp] theorem putCore_dbgstat (s : State) (n : Nat) (c : Core) : (putCore s n c).dbgstat = s.dbgstat := rfl
@[simp] theorem putCore_dbgfail (s : State) (n : Nat) (c : Core) : (putCore s n c).dbgfail = s.dbgfail := rfl
@[simp] theorem putCore_debugLife (s : State) (n : Nat) (c : Core) : (putCore s n c).debugLife = s.debugLife := rfl
@[simp] theorem putCore_deviceErr (s : State) (n : Nat) (c : Core) : (putCore s n c).deviceErr = s.deviceErr := rfl
@[simp] theorem putCore_powerLatch (s : State) (n : Nat) (c : Core) : (putCore s n c).powerLatch = s.powerLatch := rfl
@[simp] theorem putCore_linkUp (s : State) (n : Nat) (c : Core) : (putCore s n c).linkUp = s.linkUp := rfl
@[simp] theorem putCore_linkLong (s : State) (n : Nat) (c : Core) : (putCore s n c).linkLong = s.linkLong := rfl
@[simp] theorem putCore_hostTimeout (s : State) (n : Nat) (c : Core) : (putCore s n c).hostTimeout = s.hostTimeout := rfl
@[simp] theorem putCore_ualUp (s : State) (n : Nat) (c : Core) : (putCore s n c).ualUp = s.ualUp := rfl
@[simp] theorem putCore_sealedData (s : State) (n : Nat) (c : Core) : (putCore s n c).sealedData = s.sealedData := rfl
@[simp] theorem putCore_aer (s : State) (n : Nat) (c : Core) : (putCore s n c).aer = s.aer := rfl
@[simp] theorem putCore_msix0 (s : State) (n : Nat) (c : Core) : (putCore s n c).msix0 = s.msix0 := rfl
@[simp] theorem putCore_msix0Waiting (s : State) (n : Nat) (c : Core) : (putCore s n c).msix0Waiting = s.msix0Waiting := rfl
@[simp] theorem putCore_agenda (s : State) (n : Nat) (c : Core) : (putCore s n c).agenda = s.agenda := rfl
@[simp] theorem putCore_cur (s : State) (n : Nat) (c : Core) : (putCore s n c).cur = s.cur := rfl
@[simp] theorem putCore_fresh (s : State) (n : Nat) (c : Core) : (putCore s n c).fresh = s.fresh := rfl
@[simp] theorem putCore_uses (s : State) (n : Nat) (c : Core) : (putCore s n c).uses = s.uses := rfl
@[simp] theorem putCore_hostReply (s : State) (n : Nat) (c : Core) : (putCore s n c).hostReply = s.hostReply := rfl
@[simp] theorem putCore_lastRead (s : State) (n : Nat) (c : Core) : (putCore s n c).lastRead = s.lastRead := rfl

@[simp] theorem putSlice_corecap (s : State) (n : Nat) (x : Slice) : (putSlice s n x).corecap = s.corecap := rfl
@[simp] theorem putSlice_mem (s : State) (n : Nat) (x : Slice) : (putSlice s n x).mem = s.mem := rfl
@[simp] theorem putSlice_poison (s : State) (n : Nat) (x : Slice) : (putSlice s n x).poison = s.poison := rfl
@[simp] theorem putSlice_badTags (s : State) (n : Nat) (x : Slice) : (putSlice s n x).badTags = s.badTags := rfl
@[simp] theorem putSlice_wbErr (s : State) (n : Nat) (x : Slice) : (putSlice s n x).wbErr = s.wbErr := rfl
@[simp] theorem putSlice_marks (s : State) (n : Nat) (x : Slice) : (putSlice s n x).marks = s.marks := rfl
@[simp] theorem putSlice_l2 (s : State) (n : Nat) (x : Slice) : (putSlice s n x).l2 = s.l2 := rfl
@[simp] theorem putSlice_llc (s : State) (n : Nat) (x : Slice) : (putSlice s n x).llc = s.llc := rfl
@[simp] theorem putSlice_cores (s : State) (n : Nat) (x : Slice) : (putSlice s n x).cores = s.cores := rfl
@[simp] theorem putSlice_engines (s : State) (n : Nat) (x : Slice) : (putSlice s n x).engines = s.engines := rfl
@[simp] theorem putSlice_ops (s : State) (n : Nat) (x : Slice) : (putSlice s n x).ops = s.ops := rfl
@[simp] theorem putSlice_deferred (s : State) (n : Nat) (x : Slice) : (putSlice s n x).deferred = s.deferred := rfl
@[simp] theorem putSlice_nextOp (s : State) (n : Nat) (x : Slice) : (putSlice s n x).nextOp = s.nextOp := rfl
@[simp] theorem putSlice_tlb (s : State) (n : Nat) (x : Slice) : (putSlice s n x).tlb = s.tlb := rfl
@[simp] theorem putSlice_sensors (s : State) (n : Nat) (x : Slice) : (putSlice s n x).sensors = s.sensors := rfl
@[simp] theorem putSlice_shares (s : State) (n : Nat) (x : Slice) : (putSlice s n x).shares = s.shares := rfl
@[simp] theorem putSlice_nextPermit (s : State) (n : Nat) (x : Slice) : (putSlice s n x).nextPermit = s.nextPermit := rfl
@[simp] theorem putSlice_laysemHeld (s : State) (n : Nat) (x : Slice) : (putSlice s n x).laysemHeld = s.laysemHeld := rfl
@[simp] theorem putSlice_laysemPort (s : State) (n : Nat) (x : Slice) : (putSlice s n x).laysemPort = s.laysemPort := rfl
@[simp] theorem putSlice_laysemToken (s : State) (n : Nat) (x : Slice) : (putSlice s n x).laysemToken = s.laysemToken := rfl
@[simp] theorem putSlice_tokenCtr (s : State) (n : Nat) (x : Slice) : (putSlice s n x).tokenCtr = s.tokenCtr := rfl
@[simp] theorem putSlice_semtake (s : State) (n : Nat) (x : Slice) : (putSlice s n x).semtake = s.semtake := rfl
@[simp] theorem putSlice_layGen (s : State) (n : Nat) (x : Slice) : (putSlice s n x).layGen = s.layGen := rfl
@[simp] theorem putSlice_layResult (s : State) (n : Nat) (x : Slice) : (putSlice s n x).layResult = s.layResult := rfl
@[simp] theorem putSlice_layBad (s : State) (n : Nat) (x : Slice) : (putSlice s n x).layBad = s.layBad := rfl
@[simp] theorem putSlice_layPhase (s : State) (n : Nat) (x : Slice) : (putSlice s n x).layPhase = s.layPhase := rfl
@[simp] theorem putSlice_stagedMap (s : State) (n : Nat) (x : Slice) : (putSlice s n x).stagedMap = s.stagedMap := rfl
@[simp] theorem putSlice_stagedCfg (s : State) (n : Nat) (x : Slice) : (putSlice s n x).stagedCfg = s.stagedCfg := rfl
@[simp] theorem putSlice_granMap (s : State) (n : Nat) (x : Slice) : (putSlice s n x).granMap = s.granMap := rfl
@[simp] theorem putSlice_sliceCfg (s : State) (n : Nat) (x : Slice) : (putSlice s n x).sliceCfg = s.sliceCfg := rfl
@[simp] theorem putSlice_journal (s : State) (n : Nat) (x : Slice) : (putSlice s n x).journal = s.journal := rfl
@[simp] theorem putSlice_resetPending (s : State) (n : Nat) (x : Slice) : (putSlice s n x).resetPending = s.resetPending := rfl
@[simp] theorem putSlice_pkgid (s : State) (n : Nat) (x : Slice) : (putSlice s n x).pkgid = s.pkgid := rfl
@[simp] theorem putSlice_hostKgen (s : State) (n : Nat) (x : Slice) : (putSlice s n x).hostKgen = s.hostKgen := rfl
@[simp] theorem putSlice_codeKgen (s : State) (n : Nat) (x : Slice) : (putSlice s n x).codeKgen = s.codeKgen := rfl
@[simp] theorem putSlice_pfSessions (s : State) (n : Nat) (x : Slice) : (putSlice s n x).pfSessions = s.pfSessions := rfl
@[simp] theorem putSlice_hperiod (s : State) (n : Nat) (x : Slice) : (putSlice s n x).hperiod = s.hperiod := rfl
@[simp] theorem putSlice_xcbase (s : State) (n : Nat) (x : Slice) : (putSlice s n x).xcbase = s.xcbase := rfl
@[simp] theorem putSlice_xcport (s : State) (n : Nat) (x : Slice) : (putSlice s n x).xcport = s.xcport := rfl
@[simp] theorem putSlice_xcsize (s : State) (n : Nat) (x : Slice) : (putSlice s n x).xcsize = s.xcsize := rfl
@[simp] theorem putSlice_xentries (s : State) (n : Nat) (x : Slice) : (putSlice s n x).xentries = s.xentries := rfl
@[simp] theorem putSlice_fwaddr (s : State) (n : Nat) (x : Slice) : (putSlice s n x).fwaddr = s.fwaddr := rfl
@[simp] theorem putSlice_fwstat (s : State) (n : Nat) (x : Slice) : (putSlice s n x).fwstat = s.fwstat := rfl
@[simp] theorem putSlice_fwStaged (s : State) (n : Nat) (x : Slice) : (putSlice s n x).fwStaged = s.fwStaged := rfl
@[simp] theorem putSlice_fwActive (s : State) (n : Nat) (x : Slice) : (putSlice s n x).fwActive = s.fwActive := rfl
@[simp] theorem putSlice_fwMin (s : State) (n : Nat) (x : Slice) : (putSlice s n x).fwMin = s.fwMin := rfl
@[simp] theorem putSlice_dbgnonce (s : State) (n : Nat) (x : Slice) : (putSlice s n x).dbgnonce = s.dbgnonce := rfl
@[simp] theorem putSlice_dbgtoken (s : State) (n : Nat) (x : Slice) : (putSlice s n x).dbgtoken = s.dbgtoken := rfl
@[simp] theorem putSlice_dbglen (s : State) (n : Nat) (x : Slice) : (putSlice s n x).dbglen = s.dbglen := rfl
@[simp] theorem putSlice_dbgstat (s : State) (n : Nat) (x : Slice) : (putSlice s n x).dbgstat = s.dbgstat := rfl
@[simp] theorem putSlice_dbgfail (s : State) (n : Nat) (x : Slice) : (putSlice s n x).dbgfail = s.dbgfail := rfl
@[simp] theorem putSlice_debugLife (s : State) (n : Nat) (x : Slice) : (putSlice s n x).debugLife = s.debugLife := rfl
@[simp] theorem putSlice_deviceErr (s : State) (n : Nat) (x : Slice) : (putSlice s n x).deviceErr = s.deviceErr := rfl
@[simp] theorem putSlice_powerLatch (s : State) (n : Nat) (x : Slice) : (putSlice s n x).powerLatch = s.powerLatch := rfl
@[simp] theorem putSlice_linkUp (s : State) (n : Nat) (x : Slice) : (putSlice s n x).linkUp = s.linkUp := rfl
@[simp] theorem putSlice_linkLong (s : State) (n : Nat) (x : Slice) : (putSlice s n x).linkLong = s.linkLong := rfl
@[simp] theorem putSlice_hostTimeout (s : State) (n : Nat) (x : Slice) : (putSlice s n x).hostTimeout = s.hostTimeout := rfl
@[simp] theorem putSlice_ualUp (s : State) (n : Nat) (x : Slice) : (putSlice s n x).ualUp = s.ualUp := rfl
@[simp] theorem putSlice_sealedData (s : State) (n : Nat) (x : Slice) : (putSlice s n x).sealedData = s.sealedData := rfl
@[simp] theorem putSlice_aer (s : State) (n : Nat) (x : Slice) : (putSlice s n x).aer = s.aer := rfl
@[simp] theorem putSlice_msix0 (s : State) (n : Nat) (x : Slice) : (putSlice s n x).msix0 = s.msix0 := rfl
@[simp] theorem putSlice_msix0Waiting (s : State) (n : Nat) (x : Slice) : (putSlice s n x).msix0Waiting = s.msix0Waiting := rfl
@[simp] theorem putSlice_agenda (s : State) (n : Nat) (x : Slice) : (putSlice s n x).agenda = s.agenda := rfl
@[simp] theorem putSlice_cur (s : State) (n : Nat) (x : Slice) : (putSlice s n x).cur = s.cur := rfl
@[simp] theorem putSlice_fresh (s : State) (n : Nat) (x : Slice) : (putSlice s n x).fresh = s.fresh := rfl
@[simp] theorem putSlice_uses (s : State) (n : Nat) (x : Slice) : (putSlice s n x).uses = s.uses := rfl
@[simp] theorem putSlice_hostReply (s : State) (n : Nat) (x : Slice) : (putSlice s n x).hostReply = s.hostReply := rfl
@[simp] theorem putSlice_lastRead (s : State) (n : Nat) (x : Slice) : (putSlice s n x).lastRead = s.lastRead := rfl

@[simp] theorem putCtx_corecap (s : State) (sl k : Nat) (x : Ctx) : (putCtx s sl k x).corecap = s.corecap := rfl
@[simp] theorem putCtx_mem (s : State) (sl k : Nat) (x : Ctx) : (putCtx s sl k x).mem = s.mem := rfl
@[simp] theorem putCtx_poison (s : State) (sl k : Nat) (x : Ctx) : (putCtx s sl k x).poison = s.poison := rfl
@[simp] theorem putCtx_badTags (s : State) (sl k : Nat) (x : Ctx) : (putCtx s sl k x).badTags = s.badTags := rfl
@[simp] theorem putCtx_wbErr (s : State) (sl k : Nat) (x : Ctx) : (putCtx s sl k x).wbErr = s.wbErr := rfl
@[simp] theorem putCtx_marks (s : State) (sl k : Nat) (x : Ctx) : (putCtx s sl k x).marks = s.marks := rfl
@[simp] theorem putCtx_l2 (s : State) (sl k : Nat) (x : Ctx) : (putCtx s sl k x).l2 = s.l2 := rfl
@[simp] theorem putCtx_llc (s : State) (sl k : Nat) (x : Ctx) : (putCtx s sl k x).llc = s.llc := rfl
@[simp] theorem putCtx_cores (s : State) (sl k : Nat) (x : Ctx) : (putCtx s sl k x).cores = s.cores := rfl
@[simp] theorem putCtx_engines (s : State) (sl k : Nat) (x : Ctx) : (putCtx s sl k x).engines = s.engines := rfl
@[simp] theorem putCtx_ops (s : State) (sl k : Nat) (x : Ctx) : (putCtx s sl k x).ops = s.ops := rfl
@[simp] theorem putCtx_deferred (s : State) (sl k : Nat) (x : Ctx) : (putCtx s sl k x).deferred = s.deferred := rfl
@[simp] theorem putCtx_nextOp (s : State) (sl k : Nat) (x : Ctx) : (putCtx s sl k x).nextOp = s.nextOp := rfl
@[simp] theorem putCtx_tlb (s : State) (sl k : Nat) (x : Ctx) : (putCtx s sl k x).tlb = s.tlb := rfl
@[simp] theorem putCtx_sensors (s : State) (sl k : Nat) (x : Ctx) : (putCtx s sl k x).sensors = s.sensors := rfl
@[simp] theorem putCtx_shares (s : State) (sl k : Nat) (x : Ctx) : (putCtx s sl k x).shares = s.shares := rfl
@[simp] theorem putCtx_nextPermit (s : State) (sl k : Nat) (x : Ctx) : (putCtx s sl k x).nextPermit = s.nextPermit := rfl
@[simp] theorem putCtx_laysemHeld (s : State) (sl k : Nat) (x : Ctx) : (putCtx s sl k x).laysemHeld = s.laysemHeld := rfl
@[simp] theorem putCtx_laysemPort (s : State) (sl k : Nat) (x : Ctx) : (putCtx s sl k x).laysemPort = s.laysemPort := rfl
@[simp] theorem putCtx_laysemToken (s : State) (sl k : Nat) (x : Ctx) : (putCtx s sl k x).laysemToken = s.laysemToken := rfl
@[simp] theorem putCtx_tokenCtr (s : State) (sl k : Nat) (x : Ctx) : (putCtx s sl k x).tokenCtr = s.tokenCtr := rfl
@[simp] theorem putCtx_semtake (s : State) (sl k : Nat) (x : Ctx) : (putCtx s sl k x).semtake = s.semtake := rfl
@[simp] theorem putCtx_layGen (s : State) (sl k : Nat) (x : Ctx) : (putCtx s sl k x).layGen = s.layGen := rfl
@[simp] theorem putCtx_layResult (s : State) (sl k : Nat) (x : Ctx) : (putCtx s sl k x).layResult = s.layResult := rfl
@[simp] theorem putCtx_layBad (s : State) (sl k : Nat) (x : Ctx) : (putCtx s sl k x).layBad = s.layBad := rfl
@[simp] theorem putCtx_layPhase (s : State) (sl k : Nat) (x : Ctx) : (putCtx s sl k x).layPhase = s.layPhase := rfl
@[simp] theorem putCtx_stagedMap (s : State) (sl k : Nat) (x : Ctx) : (putCtx s sl k x).stagedMap = s.stagedMap := rfl
@[simp] theorem putCtx_stagedCfg (s : State) (sl k : Nat) (x : Ctx) : (putCtx s sl k x).stagedCfg = s.stagedCfg := rfl
@[simp] theorem putCtx_granMap (s : State) (sl k : Nat) (x : Ctx) : (putCtx s sl k x).granMap = s.granMap := rfl
@[simp] theorem putCtx_sliceCfg (s : State) (sl k : Nat) (x : Ctx) : (putCtx s sl k x).sliceCfg = s.sliceCfg := rfl
@[simp] theorem putCtx_journal (s : State) (sl k : Nat) (x : Ctx) : (putCtx s sl k x).journal = s.journal := rfl
@[simp] theorem putCtx_resetPending (s : State) (sl k : Nat) (x : Ctx) : (putCtx s sl k x).resetPending = s.resetPending := rfl
@[simp] theorem putCtx_pkgid (s : State) (sl k : Nat) (x : Ctx) : (putCtx s sl k x).pkgid = s.pkgid := rfl
@[simp] theorem putCtx_hostKgen (s : State) (sl k : Nat) (x : Ctx) : (putCtx s sl k x).hostKgen = s.hostKgen := rfl
@[simp] theorem putCtx_codeKgen (s : State) (sl k : Nat) (x : Ctx) : (putCtx s sl k x).codeKgen = s.codeKgen := rfl
@[simp] theorem putCtx_pfSessions (s : State) (sl k : Nat) (x : Ctx) : (putCtx s sl k x).pfSessions = s.pfSessions := rfl
@[simp] theorem putCtx_hperiod (s : State) (sl k : Nat) (x : Ctx) : (putCtx s sl k x).hperiod = s.hperiod := rfl
@[simp] theorem putCtx_xcbase (s : State) (sl k : Nat) (x : Ctx) : (putCtx s sl k x).xcbase = s.xcbase := rfl
@[simp] theorem putCtx_xcport (s : State) (sl k : Nat) (x : Ctx) : (putCtx s sl k x).xcport = s.xcport := rfl
@[simp] theorem putCtx_xcsize (s : State) (sl k : Nat) (x : Ctx) : (putCtx s sl k x).xcsize = s.xcsize := rfl
@[simp] theorem putCtx_xentries (s : State) (sl k : Nat) (x : Ctx) : (putCtx s sl k x).xentries = s.xentries := rfl
@[simp] theorem putCtx_fwaddr (s : State) (sl k : Nat) (x : Ctx) : (putCtx s sl k x).fwaddr = s.fwaddr := rfl
@[simp] theorem putCtx_fwstat (s : State) (sl k : Nat) (x : Ctx) : (putCtx s sl k x).fwstat = s.fwstat := rfl
@[simp] theorem putCtx_fwStaged (s : State) (sl k : Nat) (x : Ctx) : (putCtx s sl k x).fwStaged = s.fwStaged := rfl
@[simp] theorem putCtx_fwActive (s : State) (sl k : Nat) (x : Ctx) : (putCtx s sl k x).fwActive = s.fwActive := rfl
@[simp] theorem putCtx_fwMin (s : State) (sl k : Nat) (x : Ctx) : (putCtx s sl k x).fwMin = s.fwMin := rfl
@[simp] theorem putCtx_dbgnonce (s : State) (sl k : Nat) (x : Ctx) : (putCtx s sl k x).dbgnonce = s.dbgnonce := rfl
@[simp] theorem putCtx_dbgtoken (s : State) (sl k : Nat) (x : Ctx) : (putCtx s sl k x).dbgtoken = s.dbgtoken := rfl
@[simp] theorem putCtx_dbglen (s : State) (sl k : Nat) (x : Ctx) : (putCtx s sl k x).dbglen = s.dbglen := rfl
@[simp] theorem putCtx_dbgstat (s : State) (sl k : Nat) (x : Ctx) : (putCtx s sl k x).dbgstat = s.dbgstat := rfl
@[simp] theorem putCtx_dbgfail (s : State) (sl k : Nat) (x : Ctx) : (putCtx s sl k x).dbgfail = s.dbgfail := rfl
@[simp] theorem putCtx_debugLife (s : State) (sl k : Nat) (x : Ctx) : (putCtx s sl k x).debugLife = s.debugLife := rfl
@[simp] theorem putCtx_deviceErr (s : State) (sl k : Nat) (x : Ctx) : (putCtx s sl k x).deviceErr = s.deviceErr := rfl
@[simp] theorem putCtx_powerLatch (s : State) (sl k : Nat) (x : Ctx) : (putCtx s sl k x).powerLatch = s.powerLatch := rfl
@[simp] theorem putCtx_linkUp (s : State) (sl k : Nat) (x : Ctx) : (putCtx s sl k x).linkUp = s.linkUp := rfl
@[simp] theorem putCtx_linkLong (s : State) (sl k : Nat) (x : Ctx) : (putCtx s sl k x).linkLong = s.linkLong := rfl
@[simp] theorem putCtx_hostTimeout (s : State) (sl k : Nat) (x : Ctx) : (putCtx s sl k x).hostTimeout = s.hostTimeout := rfl
@[simp] theorem putCtx_ualUp (s : State) (sl k : Nat) (x : Ctx) : (putCtx s sl k x).ualUp = s.ualUp := rfl
@[simp] theorem putCtx_sealedData (s : State) (sl k : Nat) (x : Ctx) : (putCtx s sl k x).sealedData = s.sealedData := rfl
@[simp] theorem putCtx_aer (s : State) (sl k : Nat) (x : Ctx) : (putCtx s sl k x).aer = s.aer := rfl
@[simp] theorem putCtx_msix0 (s : State) (sl k : Nat) (x : Ctx) : (putCtx s sl k x).msix0 = s.msix0 := rfl
@[simp] theorem putCtx_msix0Waiting (s : State) (sl k : Nat) (x : Ctx) : (putCtx s sl k x).msix0Waiting = s.msix0Waiting := rfl
@[simp] theorem putCtx_agenda (s : State) (sl k : Nat) (x : Ctx) : (putCtx s sl k x).agenda = s.agenda := rfl
@[simp] theorem putCtx_cur (s : State) (sl k : Nat) (x : Ctx) : (putCtx s sl k x).cur = s.cur := rfl
@[simp] theorem putCtx_fresh (s : State) (sl k : Nat) (x : Ctx) : (putCtx s sl k x).fresh = s.fresh := rfl
@[simp] theorem putCtx_uses (s : State) (sl k : Nat) (x : Ctx) : (putCtx s sl k x).uses = s.uses := rfl
@[simp] theorem putCtx_hostReply (s : State) (sl k : Nat) (x : Ctx) : (putCtx s sl k x).hostReply = s.hostReply := rfl
@[simp] theorem putCtx_lastRead (s : State) (sl k : Nat) (x : Ctx) : (putCtx s sl k x).lastRead = s.lastRead := rfl

@[simp] theorem putWarp_corecap (s : State) (n k : Nat) (w : Warp) : (putWarp s n k w).corecap = s.corecap := rfl
@[simp] theorem putWarp_mem (s : State) (n k : Nat) (w : Warp) : (putWarp s n k w).mem = s.mem := rfl
@[simp] theorem putWarp_poison (s : State) (n k : Nat) (w : Warp) : (putWarp s n k w).poison = s.poison := rfl
@[simp] theorem putWarp_badTags (s : State) (n k : Nat) (w : Warp) : (putWarp s n k w).badTags = s.badTags := rfl
@[simp] theorem putWarp_wbErr (s : State) (n k : Nat) (w : Warp) : (putWarp s n k w).wbErr = s.wbErr := rfl
@[simp] theorem putWarp_marks (s : State) (n k : Nat) (w : Warp) : (putWarp s n k w).marks = s.marks := rfl
@[simp] theorem putWarp_l2 (s : State) (n k : Nat) (w : Warp) : (putWarp s n k w).l2 = s.l2 := rfl
@[simp] theorem putWarp_llc (s : State) (n k : Nat) (w : Warp) : (putWarp s n k w).llc = s.llc := rfl
@[simp] theorem putWarp_slices (s : State) (n k : Nat) (w : Warp) : (putWarp s n k w).slices = s.slices := rfl
@[simp] theorem putWarp_engines (s : State) (n k : Nat) (w : Warp) : (putWarp s n k w).engines = s.engines := rfl
@[simp] theorem putWarp_ops (s : State) (n k : Nat) (w : Warp) : (putWarp s n k w).ops = s.ops := rfl
@[simp] theorem putWarp_deferred (s : State) (n k : Nat) (w : Warp) : (putWarp s n k w).deferred = s.deferred := rfl
@[simp] theorem putWarp_nextOp (s : State) (n k : Nat) (w : Warp) : (putWarp s n k w).nextOp = s.nextOp := rfl
@[simp] theorem putWarp_tlb (s : State) (n k : Nat) (w : Warp) : (putWarp s n k w).tlb = s.tlb := rfl
@[simp] theorem putWarp_sensors (s : State) (n k : Nat) (w : Warp) : (putWarp s n k w).sensors = s.sensors := rfl
@[simp] theorem putWarp_shares (s : State) (n k : Nat) (w : Warp) : (putWarp s n k w).shares = s.shares := rfl
@[simp] theorem putWarp_nextPermit (s : State) (n k : Nat) (w : Warp) : (putWarp s n k w).nextPermit = s.nextPermit := rfl
@[simp] theorem putWarp_laysemHeld (s : State) (n k : Nat) (w : Warp) : (putWarp s n k w).laysemHeld = s.laysemHeld := rfl
@[simp] theorem putWarp_laysemPort (s : State) (n k : Nat) (w : Warp) : (putWarp s n k w).laysemPort = s.laysemPort := rfl
@[simp] theorem putWarp_laysemToken (s : State) (n k : Nat) (w : Warp) : (putWarp s n k w).laysemToken = s.laysemToken := rfl
@[simp] theorem putWarp_tokenCtr (s : State) (n k : Nat) (w : Warp) : (putWarp s n k w).tokenCtr = s.tokenCtr := rfl
@[simp] theorem putWarp_semtake (s : State) (n k : Nat) (w : Warp) : (putWarp s n k w).semtake = s.semtake := rfl
@[simp] theorem putWarp_layGen (s : State) (n k : Nat) (w : Warp) : (putWarp s n k w).layGen = s.layGen := rfl
@[simp] theorem putWarp_layResult (s : State) (n k : Nat) (w : Warp) : (putWarp s n k w).layResult = s.layResult := rfl
@[simp] theorem putWarp_layBad (s : State) (n k : Nat) (w : Warp) : (putWarp s n k w).layBad = s.layBad := rfl
@[simp] theorem putWarp_layPhase (s : State) (n k : Nat) (w : Warp) : (putWarp s n k w).layPhase = s.layPhase := rfl
@[simp] theorem putWarp_stagedMap (s : State) (n k : Nat) (w : Warp) : (putWarp s n k w).stagedMap = s.stagedMap := rfl
@[simp] theorem putWarp_stagedCfg (s : State) (n k : Nat) (w : Warp) : (putWarp s n k w).stagedCfg = s.stagedCfg := rfl
@[simp] theorem putWarp_granMap (s : State) (n k : Nat) (w : Warp) : (putWarp s n k w).granMap = s.granMap := rfl
@[simp] theorem putWarp_sliceCfg (s : State) (n k : Nat) (w : Warp) : (putWarp s n k w).sliceCfg = s.sliceCfg := rfl
@[simp] theorem putWarp_journal (s : State) (n k : Nat) (w : Warp) : (putWarp s n k w).journal = s.journal := rfl
@[simp] theorem putWarp_resetPending (s : State) (n k : Nat) (w : Warp) : (putWarp s n k w).resetPending = s.resetPending := rfl
@[simp] theorem putWarp_pkgid (s : State) (n k : Nat) (w : Warp) : (putWarp s n k w).pkgid = s.pkgid := rfl
@[simp] theorem putWarp_hostKgen (s : State) (n k : Nat) (w : Warp) : (putWarp s n k w).hostKgen = s.hostKgen := rfl
@[simp] theorem putWarp_codeKgen (s : State) (n k : Nat) (w : Warp) : (putWarp s n k w).codeKgen = s.codeKgen := rfl
@[simp] theorem putWarp_pfSessions (s : State) (n k : Nat) (w : Warp) : (putWarp s n k w).pfSessions = s.pfSessions := rfl
@[simp] theorem putWarp_hperiod (s : State) (n k : Nat) (w : Warp) : (putWarp s n k w).hperiod = s.hperiod := rfl
@[simp] theorem putWarp_xcbase (s : State) (n k : Nat) (w : Warp) : (putWarp s n k w).xcbase = s.xcbase := rfl
@[simp] theorem putWarp_xcport (s : State) (n k : Nat) (w : Warp) : (putWarp s n k w).xcport = s.xcport := rfl
@[simp] theorem putWarp_xcsize (s : State) (n k : Nat) (w : Warp) : (putWarp s n k w).xcsize = s.xcsize := rfl
@[simp] theorem putWarp_xentries (s : State) (n k : Nat) (w : Warp) : (putWarp s n k w).xentries = s.xentries := rfl
@[simp] theorem putWarp_fwaddr (s : State) (n k : Nat) (w : Warp) : (putWarp s n k w).fwaddr = s.fwaddr := rfl
@[simp] theorem putWarp_fwstat (s : State) (n k : Nat) (w : Warp) : (putWarp s n k w).fwstat = s.fwstat := rfl
@[simp] theorem putWarp_fwStaged (s : State) (n k : Nat) (w : Warp) : (putWarp s n k w).fwStaged = s.fwStaged := rfl
@[simp] theorem putWarp_fwActive (s : State) (n k : Nat) (w : Warp) : (putWarp s n k w).fwActive = s.fwActive := rfl
@[simp] theorem putWarp_fwMin (s : State) (n k : Nat) (w : Warp) : (putWarp s n k w).fwMin = s.fwMin := rfl
@[simp] theorem putWarp_dbgnonce (s : State) (n k : Nat) (w : Warp) : (putWarp s n k w).dbgnonce = s.dbgnonce := rfl
@[simp] theorem putWarp_dbgtoken (s : State) (n k : Nat) (w : Warp) : (putWarp s n k w).dbgtoken = s.dbgtoken := rfl
@[simp] theorem putWarp_dbglen (s : State) (n k : Nat) (w : Warp) : (putWarp s n k w).dbglen = s.dbglen := rfl
@[simp] theorem putWarp_dbgstat (s : State) (n k : Nat) (w : Warp) : (putWarp s n k w).dbgstat = s.dbgstat := rfl
@[simp] theorem putWarp_dbgfail (s : State) (n k : Nat) (w : Warp) : (putWarp s n k w).dbgfail = s.dbgfail := rfl
@[simp] theorem putWarp_debugLife (s : State) (n k : Nat) (w : Warp) : (putWarp s n k w).debugLife = s.debugLife := rfl
@[simp] theorem putWarp_deviceErr (s : State) (n k : Nat) (w : Warp) : (putWarp s n k w).deviceErr = s.deviceErr := rfl
@[simp] theorem putWarp_powerLatch (s : State) (n k : Nat) (w : Warp) : (putWarp s n k w).powerLatch = s.powerLatch := rfl
@[simp] theorem putWarp_linkUp (s : State) (n k : Nat) (w : Warp) : (putWarp s n k w).linkUp = s.linkUp := rfl
@[simp] theorem putWarp_linkLong (s : State) (n k : Nat) (w : Warp) : (putWarp s n k w).linkLong = s.linkLong := rfl
@[simp] theorem putWarp_hostTimeout (s : State) (n k : Nat) (w : Warp) : (putWarp s n k w).hostTimeout = s.hostTimeout := rfl
@[simp] theorem putWarp_ualUp (s : State) (n k : Nat) (w : Warp) : (putWarp s n k w).ualUp = s.ualUp := rfl
@[simp] theorem putWarp_sealedData (s : State) (n k : Nat) (w : Warp) : (putWarp s n k w).sealedData = s.sealedData := rfl
@[simp] theorem putWarp_aer (s : State) (n k : Nat) (w : Warp) : (putWarp s n k w).aer = s.aer := rfl
@[simp] theorem putWarp_msix0 (s : State) (n k : Nat) (w : Warp) : (putWarp s n k w).msix0 = s.msix0 := rfl
@[simp] theorem putWarp_msix0Waiting (s : State) (n k : Nat) (w : Warp) : (putWarp s n k w).msix0Waiting = s.msix0Waiting := rfl
@[simp] theorem putWarp_agenda (s : State) (n k : Nat) (w : Warp) : (putWarp s n k w).agenda = s.agenda := rfl
@[simp] theorem putWarp_cur (s : State) (n k : Nat) (w : Warp) : (putWarp s n k w).cur = s.cur := rfl
@[simp] theorem putWarp_fresh (s : State) (n k : Nat) (w : Warp) : (putWarp s n k w).fresh = s.fresh := rfl
@[simp] theorem putWarp_uses (s : State) (n k : Nat) (w : Warp) : (putWarp s n k w).uses = s.uses := rfl
@[simp] theorem putWarp_hostReply (s : State) (n k : Nat) (w : Warp) : (putWarp s n k w).hostReply = s.hostReply := rfl
@[simp] theorem putWarp_lastRead (s : State) (n k : Nat) (w : Warp) : (putWarp s n k w).lastRead = s.lastRead := rfl

@[simp] theorem putTeam_corecap (s : State) (n k : Nat) (t : Team) : (putTeam s n k t).corecap = s.corecap := rfl
@[simp] theorem putTeam_mem (s : State) (n k : Nat) (t : Team) : (putTeam s n k t).mem = s.mem := rfl
@[simp] theorem putTeam_poison (s : State) (n k : Nat) (t : Team) : (putTeam s n k t).poison = s.poison := rfl
@[simp] theorem putTeam_badTags (s : State) (n k : Nat) (t : Team) : (putTeam s n k t).badTags = s.badTags := rfl
@[simp] theorem putTeam_wbErr (s : State) (n k : Nat) (t : Team) : (putTeam s n k t).wbErr = s.wbErr := rfl
@[simp] theorem putTeam_marks (s : State) (n k : Nat) (t : Team) : (putTeam s n k t).marks = s.marks := rfl
@[simp] theorem putTeam_l2 (s : State) (n k : Nat) (t : Team) : (putTeam s n k t).l2 = s.l2 := rfl
@[simp] theorem putTeam_llc (s : State) (n k : Nat) (t : Team) : (putTeam s n k t).llc = s.llc := rfl
@[simp] theorem putTeam_slices (s : State) (n k : Nat) (t : Team) : (putTeam s n k t).slices = s.slices := rfl
@[simp] theorem putTeam_engines (s : State) (n k : Nat) (t : Team) : (putTeam s n k t).engines = s.engines := rfl
@[simp] theorem putTeam_ops (s : State) (n k : Nat) (t : Team) : (putTeam s n k t).ops = s.ops := rfl
@[simp] theorem putTeam_deferred (s : State) (n k : Nat) (t : Team) : (putTeam s n k t).deferred = s.deferred := rfl
@[simp] theorem putTeam_nextOp (s : State) (n k : Nat) (t : Team) : (putTeam s n k t).nextOp = s.nextOp := rfl
@[simp] theorem putTeam_tlb (s : State) (n k : Nat) (t : Team) : (putTeam s n k t).tlb = s.tlb := rfl
@[simp] theorem putTeam_sensors (s : State) (n k : Nat) (t : Team) : (putTeam s n k t).sensors = s.sensors := rfl
@[simp] theorem putTeam_shares (s : State) (n k : Nat) (t : Team) : (putTeam s n k t).shares = s.shares := rfl
@[simp] theorem putTeam_nextPermit (s : State) (n k : Nat) (t : Team) : (putTeam s n k t).nextPermit = s.nextPermit := rfl
@[simp] theorem putTeam_laysemHeld (s : State) (n k : Nat) (t : Team) : (putTeam s n k t).laysemHeld = s.laysemHeld := rfl
@[simp] theorem putTeam_laysemPort (s : State) (n k : Nat) (t : Team) : (putTeam s n k t).laysemPort = s.laysemPort := rfl
@[simp] theorem putTeam_laysemToken (s : State) (n k : Nat) (t : Team) : (putTeam s n k t).laysemToken = s.laysemToken := rfl
@[simp] theorem putTeam_tokenCtr (s : State) (n k : Nat) (t : Team) : (putTeam s n k t).tokenCtr = s.tokenCtr := rfl
@[simp] theorem putTeam_semtake (s : State) (n k : Nat) (t : Team) : (putTeam s n k t).semtake = s.semtake := rfl
@[simp] theorem putTeam_layGen (s : State) (n k : Nat) (t : Team) : (putTeam s n k t).layGen = s.layGen := rfl
@[simp] theorem putTeam_layResult (s : State) (n k : Nat) (t : Team) : (putTeam s n k t).layResult = s.layResult := rfl
@[simp] theorem putTeam_layBad (s : State) (n k : Nat) (t : Team) : (putTeam s n k t).layBad = s.layBad := rfl
@[simp] theorem putTeam_layPhase (s : State) (n k : Nat) (t : Team) : (putTeam s n k t).layPhase = s.layPhase := rfl
@[simp] theorem putTeam_stagedMap (s : State) (n k : Nat) (t : Team) : (putTeam s n k t).stagedMap = s.stagedMap := rfl
@[simp] theorem putTeam_stagedCfg (s : State) (n k : Nat) (t : Team) : (putTeam s n k t).stagedCfg = s.stagedCfg := rfl
@[simp] theorem putTeam_granMap (s : State) (n k : Nat) (t : Team) : (putTeam s n k t).granMap = s.granMap := rfl
@[simp] theorem putTeam_sliceCfg (s : State) (n k : Nat) (t : Team) : (putTeam s n k t).sliceCfg = s.sliceCfg := rfl
@[simp] theorem putTeam_journal (s : State) (n k : Nat) (t : Team) : (putTeam s n k t).journal = s.journal := rfl
@[simp] theorem putTeam_resetPending (s : State) (n k : Nat) (t : Team) : (putTeam s n k t).resetPending = s.resetPending := rfl
@[simp] theorem putTeam_pkgid (s : State) (n k : Nat) (t : Team) : (putTeam s n k t).pkgid = s.pkgid := rfl
@[simp] theorem putTeam_hostKgen (s : State) (n k : Nat) (t : Team) : (putTeam s n k t).hostKgen = s.hostKgen := rfl
@[simp] theorem putTeam_codeKgen (s : State) (n k : Nat) (t : Team) : (putTeam s n k t).codeKgen = s.codeKgen := rfl
@[simp] theorem putTeam_pfSessions (s : State) (n k : Nat) (t : Team) : (putTeam s n k t).pfSessions = s.pfSessions := rfl
@[simp] theorem putTeam_hperiod (s : State) (n k : Nat) (t : Team) : (putTeam s n k t).hperiod = s.hperiod := rfl
@[simp] theorem putTeam_xcbase (s : State) (n k : Nat) (t : Team) : (putTeam s n k t).xcbase = s.xcbase := rfl
@[simp] theorem putTeam_xcport (s : State) (n k : Nat) (t : Team) : (putTeam s n k t).xcport = s.xcport := rfl
@[simp] theorem putTeam_xcsize (s : State) (n k : Nat) (t : Team) : (putTeam s n k t).xcsize = s.xcsize := rfl
@[simp] theorem putTeam_xentries (s : State) (n k : Nat) (t : Team) : (putTeam s n k t).xentries = s.xentries := rfl
@[simp] theorem putTeam_fwaddr (s : State) (n k : Nat) (t : Team) : (putTeam s n k t).fwaddr = s.fwaddr := rfl
@[simp] theorem putTeam_fwstat (s : State) (n k : Nat) (t : Team) : (putTeam s n k t).fwstat = s.fwstat := rfl
@[simp] theorem putTeam_fwStaged (s : State) (n k : Nat) (t : Team) : (putTeam s n k t).fwStaged = s.fwStaged := rfl
@[simp] theorem putTeam_fwActive (s : State) (n k : Nat) (t : Team) : (putTeam s n k t).fwActive = s.fwActive := rfl
@[simp] theorem putTeam_fwMin (s : State) (n k : Nat) (t : Team) : (putTeam s n k t).fwMin = s.fwMin := rfl
@[simp] theorem putTeam_dbgnonce (s : State) (n k : Nat) (t : Team) : (putTeam s n k t).dbgnonce = s.dbgnonce := rfl
@[simp] theorem putTeam_dbgtoken (s : State) (n k : Nat) (t : Team) : (putTeam s n k t).dbgtoken = s.dbgtoken := rfl
@[simp] theorem putTeam_dbglen (s : State) (n k : Nat) (t : Team) : (putTeam s n k t).dbglen = s.dbglen := rfl
@[simp] theorem putTeam_dbgstat (s : State) (n k : Nat) (t : Team) : (putTeam s n k t).dbgstat = s.dbgstat := rfl
@[simp] theorem putTeam_dbgfail (s : State) (n k : Nat) (t : Team) : (putTeam s n k t).dbgfail = s.dbgfail := rfl
@[simp] theorem putTeam_debugLife (s : State) (n k : Nat) (t : Team) : (putTeam s n k t).debugLife = s.debugLife := rfl
@[simp] theorem putTeam_deviceErr (s : State) (n k : Nat) (t : Team) : (putTeam s n k t).deviceErr = s.deviceErr := rfl
@[simp] theorem putTeam_powerLatch (s : State) (n k : Nat) (t : Team) : (putTeam s n k t).powerLatch = s.powerLatch := rfl
@[simp] theorem putTeam_linkUp (s : State) (n k : Nat) (t : Team) : (putTeam s n k t).linkUp = s.linkUp := rfl
@[simp] theorem putTeam_linkLong (s : State) (n k : Nat) (t : Team) : (putTeam s n k t).linkLong = s.linkLong := rfl
@[simp] theorem putTeam_hostTimeout (s : State) (n k : Nat) (t : Team) : (putTeam s n k t).hostTimeout = s.hostTimeout := rfl
@[simp] theorem putTeam_ualUp (s : State) (n k : Nat) (t : Team) : (putTeam s n k t).ualUp = s.ualUp := rfl
@[simp] theorem putTeam_sealedData (s : State) (n k : Nat) (t : Team) : (putTeam s n k t).sealedData = s.sealedData := rfl
@[simp] theorem putTeam_aer (s : State) (n k : Nat) (t : Team) : (putTeam s n k t).aer = s.aer := rfl
@[simp] theorem putTeam_msix0 (s : State) (n k : Nat) (t : Team) : (putTeam s n k t).msix0 = s.msix0 := rfl
@[simp] theorem putTeam_msix0Waiting (s : State) (n k : Nat) (t : Team) : (putTeam s n k t).msix0Waiting = s.msix0Waiting := rfl
@[simp] theorem putTeam_agenda (s : State) (n k : Nat) (t : Team) : (putTeam s n k t).agenda = s.agenda := rfl
@[simp] theorem putTeam_cur (s : State) (n k : Nat) (t : Team) : (putTeam s n k t).cur = s.cur := rfl
@[simp] theorem putTeam_fresh (s : State) (n k : Nat) (t : Team) : (putTeam s n k t).fresh = s.fresh := rfl
@[simp] theorem putTeam_uses (s : State) (n k : Nat) (t : Team) : (putTeam s n k t).uses = s.uses := rfl
@[simp] theorem putTeam_hostReply (s : State) (n k : Nat) (t : Team) : (putTeam s n k t).hostReply = s.hostReply := rfl
@[simp] theorem putTeam_lastRead (s : State) (n k : Nat) (t : Team) : (putTeam s n k t).lastRead = s.lastRead := rfl

@[simp] theorem excPut_corecap (s : State) (n c k : Nat) (e : ExcState) : (excPut s n c k e).corecap = s.corecap := rfl
@[simp] theorem excPut_mem (s : State) (n c k : Nat) (e : ExcState) : (excPut s n c k e).mem = s.mem := rfl
@[simp] theorem excPut_poison (s : State) (n c k : Nat) (e : ExcState) : (excPut s n c k e).poison = s.poison := rfl
@[simp] theorem excPut_badTags (s : State) (n c k : Nat) (e : ExcState) : (excPut s n c k e).badTags = s.badTags := rfl
@[simp] theorem excPut_wbErr (s : State) (n c k : Nat) (e : ExcState) : (excPut s n c k e).wbErr = s.wbErr := rfl
@[simp] theorem excPut_marks (s : State) (n c k : Nat) (e : ExcState) : (excPut s n c k e).marks = s.marks := rfl
@[simp] theorem excPut_l2 (s : State) (n c k : Nat) (e : ExcState) : (excPut s n c k e).l2 = s.l2 := rfl
@[simp] theorem excPut_llc (s : State) (n c k : Nat) (e : ExcState) : (excPut s n c k e).llc = s.llc := rfl
@[simp] theorem excPut_slices (s : State) (n c k : Nat) (e : ExcState) : (excPut s n c k e).slices = s.slices := rfl
@[simp] theorem excPut_engines (s : State) (n c k : Nat) (e : ExcState) : (excPut s n c k e).engines = s.engines := rfl
@[simp] theorem excPut_ops (s : State) (n c k : Nat) (e : ExcState) : (excPut s n c k e).ops = s.ops := rfl
@[simp] theorem excPut_deferred (s : State) (n c k : Nat) (e : ExcState) : (excPut s n c k e).deferred = s.deferred := rfl
@[simp] theorem excPut_nextOp (s : State) (n c k : Nat) (e : ExcState) : (excPut s n c k e).nextOp = s.nextOp := rfl
@[simp] theorem excPut_tlb (s : State) (n c k : Nat) (e : ExcState) : (excPut s n c k e).tlb = s.tlb := rfl
@[simp] theorem excPut_sensors (s : State) (n c k : Nat) (e : ExcState) : (excPut s n c k e).sensors = s.sensors := rfl
@[simp] theorem excPut_shares (s : State) (n c k : Nat) (e : ExcState) : (excPut s n c k e).shares = s.shares := rfl
@[simp] theorem excPut_nextPermit (s : State) (n c k : Nat) (e : ExcState) : (excPut s n c k e).nextPermit = s.nextPermit := rfl
@[simp] theorem excPut_laysemHeld (s : State) (n c k : Nat) (e : ExcState) : (excPut s n c k e).laysemHeld = s.laysemHeld := rfl
@[simp] theorem excPut_laysemPort (s : State) (n c k : Nat) (e : ExcState) : (excPut s n c k e).laysemPort = s.laysemPort := rfl
@[simp] theorem excPut_laysemToken (s : State) (n c k : Nat) (e : ExcState) : (excPut s n c k e).laysemToken = s.laysemToken := rfl
@[simp] theorem excPut_tokenCtr (s : State) (n c k : Nat) (e : ExcState) : (excPut s n c k e).tokenCtr = s.tokenCtr := rfl
@[simp] theorem excPut_semtake (s : State) (n c k : Nat) (e : ExcState) : (excPut s n c k e).semtake = s.semtake := rfl
@[simp] theorem excPut_layGen (s : State) (n c k : Nat) (e : ExcState) : (excPut s n c k e).layGen = s.layGen := rfl
@[simp] theorem excPut_layResult (s : State) (n c k : Nat) (e : ExcState) : (excPut s n c k e).layResult = s.layResult := rfl
@[simp] theorem excPut_layBad (s : State) (n c k : Nat) (e : ExcState) : (excPut s n c k e).layBad = s.layBad := rfl
@[simp] theorem excPut_layPhase (s : State) (n c k : Nat) (e : ExcState) : (excPut s n c k e).layPhase = s.layPhase := rfl
@[simp] theorem excPut_stagedMap (s : State) (n c k : Nat) (e : ExcState) : (excPut s n c k e).stagedMap = s.stagedMap := rfl
@[simp] theorem excPut_stagedCfg (s : State) (n c k : Nat) (e : ExcState) : (excPut s n c k e).stagedCfg = s.stagedCfg := rfl
@[simp] theorem excPut_granMap (s : State) (n c k : Nat) (e : ExcState) : (excPut s n c k e).granMap = s.granMap := rfl
@[simp] theorem excPut_sliceCfg (s : State) (n c k : Nat) (e : ExcState) : (excPut s n c k e).sliceCfg = s.sliceCfg := rfl
@[simp] theorem excPut_journal (s : State) (n c k : Nat) (e : ExcState) : (excPut s n c k e).journal = s.journal := rfl
@[simp] theorem excPut_resetPending (s : State) (n c k : Nat) (e : ExcState) : (excPut s n c k e).resetPending = s.resetPending := rfl
@[simp] theorem excPut_pkgid (s : State) (n c k : Nat) (e : ExcState) : (excPut s n c k e).pkgid = s.pkgid := rfl
@[simp] theorem excPut_hostKgen (s : State) (n c k : Nat) (e : ExcState) : (excPut s n c k e).hostKgen = s.hostKgen := rfl
@[simp] theorem excPut_codeKgen (s : State) (n c k : Nat) (e : ExcState) : (excPut s n c k e).codeKgen = s.codeKgen := rfl
@[simp] theorem excPut_pfSessions (s : State) (n c k : Nat) (e : ExcState) : (excPut s n c k e).pfSessions = s.pfSessions := rfl
@[simp] theorem excPut_hperiod (s : State) (n c k : Nat) (e : ExcState) : (excPut s n c k e).hperiod = s.hperiod := rfl
@[simp] theorem excPut_xcbase (s : State) (n c k : Nat) (e : ExcState) : (excPut s n c k e).xcbase = s.xcbase := rfl
@[simp] theorem excPut_xcport (s : State) (n c k : Nat) (e : ExcState) : (excPut s n c k e).xcport = s.xcport := rfl
@[simp] theorem excPut_xcsize (s : State) (n c k : Nat) (e : ExcState) : (excPut s n c k e).xcsize = s.xcsize := rfl
@[simp] theorem excPut_xentries (s : State) (n c k : Nat) (e : ExcState) : (excPut s n c k e).xentries = s.xentries := rfl
@[simp] theorem excPut_fwaddr (s : State) (n c k : Nat) (e : ExcState) : (excPut s n c k e).fwaddr = s.fwaddr := rfl
@[simp] theorem excPut_fwstat (s : State) (n c k : Nat) (e : ExcState) : (excPut s n c k e).fwstat = s.fwstat := rfl
@[simp] theorem excPut_fwStaged (s : State) (n c k : Nat) (e : ExcState) : (excPut s n c k e).fwStaged = s.fwStaged := rfl
@[simp] theorem excPut_fwActive (s : State) (n c k : Nat) (e : ExcState) : (excPut s n c k e).fwActive = s.fwActive := rfl
@[simp] theorem excPut_fwMin (s : State) (n c k : Nat) (e : ExcState) : (excPut s n c k e).fwMin = s.fwMin := rfl
@[simp] theorem excPut_dbgnonce (s : State) (n c k : Nat) (e : ExcState) : (excPut s n c k e).dbgnonce = s.dbgnonce := rfl
@[simp] theorem excPut_dbgtoken (s : State) (n c k : Nat) (e : ExcState) : (excPut s n c k e).dbgtoken = s.dbgtoken := rfl
@[simp] theorem excPut_dbglen (s : State) (n c k : Nat) (e : ExcState) : (excPut s n c k e).dbglen = s.dbglen := rfl
@[simp] theorem excPut_dbgstat (s : State) (n c k : Nat) (e : ExcState) : (excPut s n c k e).dbgstat = s.dbgstat := rfl
@[simp] theorem excPut_dbgfail (s : State) (n c k : Nat) (e : ExcState) : (excPut s n c k e).dbgfail = s.dbgfail := rfl
@[simp] theorem excPut_debugLife (s : State) (n c k : Nat) (e : ExcState) : (excPut s n c k e).debugLife = s.debugLife := rfl
@[simp] theorem excPut_deviceErr (s : State) (n c k : Nat) (e : ExcState) : (excPut s n c k e).deviceErr = s.deviceErr := rfl
@[simp] theorem excPut_powerLatch (s : State) (n c k : Nat) (e : ExcState) : (excPut s n c k e).powerLatch = s.powerLatch := rfl
@[simp] theorem excPut_linkUp (s : State) (n c k : Nat) (e : ExcState) : (excPut s n c k e).linkUp = s.linkUp := rfl
@[simp] theorem excPut_linkLong (s : State) (n c k : Nat) (e : ExcState) : (excPut s n c k e).linkLong = s.linkLong := rfl
@[simp] theorem excPut_hostTimeout (s : State) (n c k : Nat) (e : ExcState) : (excPut s n c k e).hostTimeout = s.hostTimeout := rfl
@[simp] theorem excPut_ualUp (s : State) (n c k : Nat) (e : ExcState) : (excPut s n c k e).ualUp = s.ualUp := rfl
@[simp] theorem excPut_sealedData (s : State) (n c k : Nat) (e : ExcState) : (excPut s n c k e).sealedData = s.sealedData := rfl
@[simp] theorem excPut_aer (s : State) (n c k : Nat) (e : ExcState) : (excPut s n c k e).aer = s.aer := rfl
@[simp] theorem excPut_msix0 (s : State) (n c k : Nat) (e : ExcState) : (excPut s n c k e).msix0 = s.msix0 := rfl
@[simp] theorem excPut_msix0Waiting (s : State) (n c k : Nat) (e : ExcState) : (excPut s n c k e).msix0Waiting = s.msix0Waiting := rfl
@[simp] theorem excPut_agenda (s : State) (n c k : Nat) (e : ExcState) : (excPut s n c k e).agenda = s.agenda := rfl
@[simp] theorem excPut_cur (s : State) (n c k : Nat) (e : ExcState) : (excPut s n c k e).cur = s.cur := rfl
@[simp] theorem excPut_fresh (s : State) (n c k : Nat) (e : ExcState) : (excPut s n c k e).fresh = s.fresh := rfl
@[simp] theorem excPut_uses (s : State) (n c k : Nat) (e : ExcState) : (excPut s n c k e).uses = s.uses := rfl
@[simp] theorem excPut_hostReply (s : State) (n c k : Nat) (e : ExcState) : (excPut s n c k e).hostReply = s.hostReply := rfl
@[simp] theorem excPut_lastRead (s : State) (n c k : Nat) (e : ExcState) : (excPut s n c k e).lastRead = s.lastRead := rfl

@[simp] theorem getCore_putCore_same (s : State) (n : Nat) (c : Core) : getCore (putCore s n c) n = c := by
  simp [getCore, putCore]

@[simp] theorem getCore_putCore_other (s : State) {m n : Nat} (c : Core) (h : m ≠ n) : getCore (putCore s n c) m = getCore s m := by
  simp [getCore, putCore, h]

@[simp] theorem getSlice_putSlice_same (s : State) (n : Nat) (x : Slice) : getSlice (putSlice s n x) n = x := by
  simp [getSlice, putSlice]

@[simp] theorem getSlice_putSlice_other (s : State) {m n : Nat} (x : Slice) (h : m ≠ n) :
    getSlice (putSlice s n x) m = getSlice s m := by simp [getSlice, putSlice, h]

@[simp] theorem getSlice_putCore (s : State) (n : Nat) (c : Core) (m : Nat) : getSlice (putCore s n c) m = getSlice s m := rfl

@[simp] theorem getSlice_putWarp (s : State) (n k : Nat) (w : Warp) (m : Nat) : getSlice (putWarp s n k w) m = getSlice s m := rfl

@[simp] theorem getSlice_putTeam (s : State) (n k : Nat) (t : Team) (m : Nat) : getSlice (putTeam s n k t) m = getSlice s m := rfl

@[simp] theorem getSlice_excPut (s : State) (n c k : Nat) (e : ExcState) (m : Nat) : getSlice (excPut s n c k e) m = getSlice s m := rfl

@[simp] theorem getCtx_putCore (s : State) (n : Nat) (c : Core) (sl k : Nat) : getCtx (putCore s n c) sl k = getCtx s sl k := rfl

@[simp] theorem getCtx_putWarp (s : State) (n m : Nat) (w : Warp) (sl k : Nat) : getCtx (putWarp s n m w) sl k = getCtx s sl k := rfl

@[simp] theorem getCtx_excPut (s : State) (n c m : Nat) (e : ExcState) (sl k : Nat) : getCtx (excPut s n c m e) sl k = getCtx s sl k := rfl

@[simp] theorem getCore_putSlice (s : State) (n : Nat) (x : Slice) (m : Nat) : getCore (putSlice s n x) m = getCore s m := rfl

@[simp] theorem getCore_putCtx (s : State) (sl k : Nat) (x : Ctx) (m : Nat) : getCore (putCtx s sl k x) m = getCore s m := rfl

@[simp] theorem getWarp_putSlice (s : State) (n : Nat) (x : Slice) (m k : Nat) : getWarp (putSlice s n x) m k = getWarp s m k := rfl

@[simp] theorem getWarp_putCtx (s : State) (sl c : Nat) (x : Ctx) (m k : Nat) : getWarp (putCtx s sl c x) m k = getWarp s m k := rfl

@[simp] theorem getTeam_putSlice (s : State) (n : Nat) (x : Slice) (m k : Nat) : getTeam (putSlice s n x) m k = getTeam s m k := rfl

@[simp] theorem getCtx_putCtx_same (s : State) (sl k : Nat) (x : Ctx) : getCtx (putCtx s sl k x) sl k = x := by
  simp [getCtx, putCtx]

@[simp] theorem getCtx_putCtx_other (s : State) (sl : Nat) {j k : Nat} (x : Ctx) (h : j ≠ k) :
    getCtx (putCtx s sl k x) sl j = getCtx s sl j := by simp [getCtx, putCtx, h]

@[simp] theorem getWarp_putWarp_same (s : State) (n k : Nat) (w : Warp) : getWarp (putWarp s n k w) n k = some w := by
  simp [getWarp, putWarp]

@[simp] theorem getWarp_putWarp_slot (s : State) (n : Nat) {j k : Nat} (w : Warp) (h : j ≠ k) :
    getWarp (putWarp s n k w) n j = getWarp s n j := by simp [getWarp, putWarp, h]

@[simp] theorem getWarp_putWarp_core (s : State) {m n : Nat} (k j : Nat) (w : Warp) (h : m ≠ n) :
    getWarp (putWarp s n k w) m j = getWarp s m j := by simp [getWarp, putWarp, h]

@[simp] theorem getCore_putWarp_other (s : State) {m n : Nat} (k : Nat) (w : Warp) (h : m ≠ n) :
    getCore (putWarp s n k w) m = getCore s m := by simp [putWarp, h]

@[simp] theorem getCore_putWarp_same (s : State) (n k : Nat) (w : Warp) :
    getCore (putWarp s n k w) n = { getCore s n with warps := tset (getCore s n).warps k w } := by simp [putWarp]

@[simp] theorem getCore_putTeam_same (s : State) (n k : Nat) (t : Team) :
    getCore (putTeam s n k t) n = { getCore s n with teams := tset (getCore s n).teams k t } := by simp [putTeam]

@[simp] theorem getCore_putTeam_other (s : State) {m n : Nat} (k : Nat) (t : Team) (h : m ≠ n) :
    getCore (putTeam s n k t) m = getCore s m := by simp [putTeam, h]

@[simp] theorem getTeam_putTeam_same (s : State) (n k : Nat) (t : Team) : getTeam (putTeam s n k t) n k = t := by
  simp [getTeam]

@[simp] theorem getWarp_putTeam (s : State) (n k : Nat) (t : Team) (m j : Nat) : getWarp (putTeam s n k t) m j = getWarp s m j := by
  by_cases h : m = n
  · subst h; simp [getWarp]
  · simp [getWarp, h]

@[simp] theorem getTeam_putWarp (s : State) (n k : Nat) (w : Warp) (m j : Nat) : getTeam (putWarp s n k w) m j = getTeam s m j := by
  by_cases h : m = n
  · subst h; simp [getTeam]
  · simp [getTeam, h]

@[simp] theorem slotGen_putWarp (s : State) (n k : Nat) (w : Warp) (m j : Nat) : slotGen (putWarp s n k w) m j = slotGen s m j := by
  by_cases h : m = n
  · subst h; simp [slotGen]
  · simp [slotGen, h]

@[simp] theorem getCore_excPut_same (s : State) (n c k : Nat) (e : ExcState) :
    getCore (excPut s n c k e) n = { getCore s n with exc := tset (getCore s n).exc (c * 8 + k) e } := by simp [excPut]

@[simp] theorem getCore_excPut_other (s : State) {m n : Nat} (c k : Nat) (e : ExcState) (h : m ≠ n) :
    getCore (excPut s n c k e) m = getCore s m := by simp [excPut, h]

@[simp] theorem getWarp_excPut (s : State) (n c k : Nat) (e : ExcState) (m j : Nat) : getWarp (excPut s n c k e) m j = getWarp s m j := by
  by_cases h : m = n
  · subst h; simp [getWarp]
  · simp [getWarp, h]

@[simp] theorem getTeam_excPut (s : State) (n c k : Nat) (e : ExcState) (m j : Nat) : getTeam (excPut s n c k e) m j = getTeam s m j := by
  by_cases h : m = n
  · subst h; simp [getTeam]
  · simp [getTeam, h]

/-- Which cores serve a slice depends on the granule map alone. -/
theorem coresOf_congr {s t : State} (h : t.granMap = s.granMap) (sl : Nat) : coresOf t sl = coresOf s sl := by
  simp [coresOf, sliceOfCore, sliceOfGranule, h]

end Sys2Proof.Machine
end

