-- ==== Sys2Proof/Laws/Retire.lean ====
section
/-!
SUPPORT. What a retirement can change: the warp it is given, count state of its context on its core, and events of its slice.
-/
namespace Sys2Proof.Machine

/-- A warp but for the threshold traps that wait. -/
def Warp.noPend (w : Warp) : Warp := { w with pendThr := [] }

/-- What counting events and stepping windows can change for a context on a core, on behalf of the warp in a slot. -/
structure Counted (s t : State) (core slot sl ctx : Nat) : Prop where
  rest : { t with cores := s.cores, slices := s.slices } = s
  cores : ∀ n, n ≠ core → getCore t n = getCore s n
  here : { getCore t core with warps := (getCore s core).warps, exc := (getCore s core).exc, cycle := (getCore s core).cycle } = getCore s core
  warps : ∀ k, k ≠ slot → getWarp t core k = getWarp s core k
  warp : (getWarp t core slot).map Warp.noPend = (getWarp s core slot).map Warp.noPend
  counts : ∀ k, k / 8 ≠ ctx → tfind (getCore t core).exc k = tfind (getCore s core).exc k
  slices : ∀ n, n ≠ sl → getSlice t n = getSlice s n
  slice : { getSlice t sl with
      evstat := (getSlice s sl).evstat, evhead := (getSlice s sl).evhead, events := (getSlice s sl).events,
      msixWaiting := (getSlice s sl).msixWaiting, msixSent := (getSlice s sl).msixSent } = getSlice s sl

theorem Counted.refl (s : State) (core slot sl ctx : Nat) : Counted s s core slot sl ctx :=
  ⟨rfl, fun _ _ => rfl, rfl, fun _ _ => rfl, rfl, fun _ _ => rfl, fun _ _ => rfl, rfl⟩

theorem Counted.trans {s t u : State} {core slot sl ctx : Nat} (a : Counted s t core slot sl ctx) (b : Counted t u core slot sl ctx) :
    Counted s u core slot sl ctx where
  rest := by
    have h := congrArg (fun x : State => { x with cores := s.cores, slices := s.slices }) b.rest
    exact h.trans a.rest
  cores n h := (b.cores n h).trans (a.cores n h)
  here := by
    have h := congrArg (fun x : Core =>
      { x with warps := (getCore s core).warps, exc := (getCore s core).exc, cycle := (getCore s core).cycle }) b.here
    exact h.trans a.here
  warps k h := (b.warps k h).trans (a.warps k h)
  warp := b.warp.trans a.warp
  counts k h := (b.counts k h).trans (a.counts k h)
  slices n h := (b.slices n h).trans (a.slices n h)
  slice := by
    have h := congrArg (fun x : Slice => { x with
      evstat := (getSlice s sl).evstat, evhead := (getSlice s sl).evhead, events := (getSlice s sl).events,
      msixWaiting := (getSlice s sl).msixWaiting, msixSent := (getSlice s sl).msixSent }) b.slice
    exact h.trans a.slice

/-- Replacing one class's count state. -/
theorem counted_excPut (s : State) (core slot sl ctx cls : Nat) (e : ExcState) (h : cls < 8) :
    Counted s (excPut s core ctx cls e) core slot sl ctx where
  rest := rfl
  cores n hn := getCore_excPut_other s ctx cls e hn
  here := by simp
  warps k _ := getWarp_excPut ..
  warp := by simp
  counts k hk := by
    rw [getCore_excPut_same]
    exact tfind_tset_other _ _ (by omega)
  slices _ _ := rfl
  slice := rfl

/-- A pending threshold trap added to the warp. -/
theorem counted_pend (s : State) (core slot sl ctx : Nat) (w : Warp) (l : List Nat) (h : getWarp s core slot = some w) :
    Counted s (putWarp s core slot { w with pendThr := l }) core slot sl ctx where
  rest := rfl
  cores n hn := getCore_putWarp_other s slot _ hn
  here := by simp
  warps k hk := getWarp_putWarp_slot s core _ hk
  warp := by simp [h, Warp.noPend]
  counts k _ := by simp
  slices _ _ := rfl
  slice := rfl

/-- A slice replaced by one that differs in its event queue and its vectors alone. -/
theorem counted_putSlice (s : State) (core slot sl ctx : Nat) (x : Slice) (h : { x with
      evstat := (getSlice s sl).evstat, evhead := (getSlice s sl).evhead, events := (getSlice s sl).events,
      msixWaiting := (getSlice s sl).msixWaiting, msixSent := (getSlice s sl).msixSent } = getSlice s sl) :
    Counted s (putSlice s sl x) core slot sl ctx where
  rest := rfl
  cores _ _ := rfl
  here := rfl
  warps _ _ := rfl
  warp := rfl
  counts _ _ := rfl
  slices n hn := getSlice_putSlice_other s x hn
  slice := by rw [getSlice_putSlice_same]; exact h

theorem counted_raiseVector (s : State) (core slot sl ctx v : Nat) : Counted s (raiseVector s sl v) core slot sl ctx := by
  unfold raiseVector
  simp only
  split
  · exact counted_putSlice _ _ _ _ _ _ rfl
  · split
    · exact Counted.refl ..
    · exact counted_putSlice _ _ _ _ _ _ rfl

/-- What raising an event leaves alone. -/
theorem counted_raiseEvent (s : State) (core slot sl ctx bit c n cls low : Nat) (high : DWord) :
    Counted s (raiseEvent s sl bit c n cls low high) core slot sl ctx := by
  unfold raiseEvent
  simp only
  refine Counted.trans ?_ (counted_raiseVector ..)
  split <;> exact counted_putSlice _ _ _ _ _ _ rfl

theorem counted_takeAction (s : State) (core slot sl ctx cls act : Nat) :
    Counted s (takeAction s core slot sl ctx cls act) core slot sl ctx := by
  have pend : Counted s (if bitOf act 0 then
      match getWarp s core slot with
      | none => s
      | some w => if liveLanes w = 0 then s else putWarp s core slot { w with pendThr := addPending w.pendThr cls }
    else s) core slot sl ctx := by
    split
    · split
      · exact Counted.refl ..
      · next w hw =>
        split
        · exact Counted.refl ..
        · exact counted_pend _ _ _ _ _ w _ hw
    · exact Counted.refl ..
  unfold takeAction
  simp only
  split
  · exact pend.trans (counted_raiseEvent ..)
  · exact pend

theorem counted_countClass (s : State) (core slot sl ctx cls n : Nat) (h : cls < 8) :
    Counted s (countClass s core slot sl ctx cls n) core slot sl ctx := by
  unfold countClass
  split
  · exact Counted.refl ..
  · simp only
    split
    · exact (counted_excPut s core slot sl ctx cls _ h).trans (counted_takeAction ..)
    · exact counted_excPut s core slot sl ctx cls _ h

theorem counted_foldl (f : State → Nat → State) (core slot sl ctx : Nat)
    (hf : ∀ s k, k < 8 → Counted s (f s k) core slot sl ctx) (ks : List Nat) (hk : ∀ k ∈ ks, k < 8) (s : State) :
    Counted s (ks.foldl f s) core slot sl ctx := by
  induction ks generalizing s with
  | nil => exact Counted.refl ..
  | cons k ks ih =>
    exact (hf s k (hk k (by simp))).trans (ih (fun j hj => hk j (by simp [hj])) _)

theorem counted_countEvents (s : State) (core slot sl ctx : Nat) (ev : List Nat) :
    Counted s (countEvents s core slot sl ctx ev) core slot sl ctx :=
  counted_foldl _ _ _ _ _ (fun s k h => counted_countClass s core slot sl ctx k _ h) _ (by simp) s

theorem counted_modWindows (f : ExcState → ExcState) (s : State) (core slot sl ctx : Nat) :
    Counted s (modWindows f s core sl ctx) core slot sl ctx :=
  counted_foldl _ _ _ _ _ (fun s k h => counted_excPut s core slot sl ctx k _ h) _ (by simp) s

theorem counted_stepWindows (s : State) (core slot sl ctx : Nat) : Counted s (stepWindows s core sl ctx) core slot sl ctx := by
  unfold stepWindows
  split
  · exact counted_modWindows ..
  · exact ⟨rfl, fun n hn => getCore_putCore_other s _ hn, by simp, fun k _ => by simp [getWarp], by simp [getWarp], fun k _ => by simp,
      fun _ _ => rfl, rfl⟩

theorem slices_modWindows (f : ExcState → ExcState) (s : State) (core sl ctx : Nat) : (modWindows f s core sl ctx).slices = s.slices := by
  unfold modWindows
  generalize List.range 8 = ks
  induction ks generalizing s with
  | nil => rfl
  | cons k ks ih => simpa using ih (excPut s core ctx k (f (excGet s core sl ctx k)))

/-- Windows alone change no slice. -/
theorem slices_stepWindows (s : State) (core sl ctx : Nat) : (stepWindows s core sl ctx).slices = s.slices := by
  unfold stepWindows
  split
  · exact slices_modWindows ..
  · rfl

/-- No event counts nothing. -/
@[simp] theorem countEvents_nil (s : State) (core slot sl ctx : Nat) : countEvents s core slot sl ctx [] = s := by
  unfold countEvents
  generalize List.range 8 = ks
  induction ks with
  | nil => rfl
  | cons k ks ih => simpa [countClass] using ih

theorem getWarp_modWindows (f : ExcState → ExcState) (s : State) (core sl ctx n k : Nat) :
    getWarp (modWindows f s core sl ctx) n k = getWarp s n k := by
  unfold modWindows
  generalize List.range 8 = ks
  induction ks generalizing s with
  | nil => rfl
  | cons j ks ih => simpa using ih (excPut s core ctx j (f (excGet s core sl ctx j)))

/-- Windows alone leave every warp as it is. -/
@[simp] theorem getWarp_stepWindows (s : State) (core sl ctx n k : Nat) : getWarp (stepWindows s core sl ctx) n k = getWarp s n k := by
  unfold stepWindows
  split
  · exact getWarp_modWindows ..
  · by_cases h : n = core
    · subst h; simp [getWarp]
    · simp [getWarp, h]

/-- Two states agree on which retirements share a core's cycle. -/
def SameCycle (s t : State) (core : Nat) : Prop := (getCore t core).cycle = (getCore s core).cycle

theorem SameCycle.trans {s t u : State} {core : Nat} (a : SameCycle s t core) (b : SameCycle t u core) : SameCycle s u core :=
  Eq.trans b a

theorem sameCycle_excPut (s : State) (core ctx cls : Nat) (e : ExcState) : SameCycle s (excPut s core ctx cls e) core := by
  simp [SameCycle]

theorem sameCycle_putWarp (s : State) (core n slot : Nat) (w : Warp) : SameCycle s (putWarp s n slot w) core := by
  by_cases h : core = n
  · subst h; simp [SameCycle]
  · rw [SameCycle, getCore_putWarp_other s slot w h]

/-- A change of slices alone. -/
theorem sameCycle_cores {s t : State} {core : Nat} (h : t.cores = s.cores) : SameCycle s t core := by rw [SameCycle, getCore, getCore, h]

theorem cores_raiseEvent (s : State) (sl bit c n cls low : Nat) (high : DWord) : (raiseEvent s sl bit c n cls low high).cores = s.cores := by
  have v : ∀ s : State, (raiseVector s sl (63 - bit)).cores = s.cores := fun s => by
    unfold raiseVector
    simp only
    split
    · rfl
    · split <;> rfl
  exact v _

theorem sameCycle_takeAction (s : State) (core slot sl ctx cls act : Nat) : SameCycle s (takeAction s core slot sl ctx cls act) core := by
  have pend : SameCycle s (if bitOf act 0 then
      match getWarp s core slot with
      | none => s
      | some w => if liveLanes w = 0 then s else putWarp s core slot { w with pendThr := addPending w.pendThr cls }
    else s) core := by
    split
    · split
      · rfl
      · split
        · rfl
        · exact sameCycle_putWarp ..
    · rfl
  unfold takeAction
  simp only
  split
  · exact pend.trans (sameCycle_cores (cores_raiseEvent ..))
  · exact pend

theorem sameCycle_countClass (s : State) (core slot sl ctx cls n : Nat) : SameCycle s (countClass s core slot sl ctx cls n) core := by
  unfold countClass
  split
  · rfl
  · simp only
    split
    · exact (sameCycle_excPut s core ctx cls _).trans (sameCycle_takeAction ..)
    · exact sameCycle_excPut s core ctx cls _

theorem sameCycle_foldl {f : State → Nat → State} {core : Nat} (hf : ∀ s k, SameCycle s (f s k) core) (ks : List Nat) (s : State) :
    SameCycle s (ks.foldl f s) core := by
  induction ks generalizing s with
  | nil => rfl
  | cons k ks ih => exact (hf s k).trans (ih _)

/-- Counting events leaves the core's cycle alone. -/
theorem sameCycle_countEvents (s : State) (core slot sl ctx : Nat) (ev : List Nat) : SameCycle s (countEvents s core slot sl ctx ev) core :=
  sameCycle_foldl (fun s k => sameCycle_countClass s core slot sl ctx k _) _ s

/-- A retirement that shares its cycle with others is noted. -/
theorem cycle_stepWindows (s : State) (core sl ctx : Nat) :
    (getCore (stepWindows s core sl ctx) core).cycle = (getCore s core).cycle.map (fun cs => cs ++ [ctx]) := by
  unfold stepWindows
  split
  · next h =>
    have k : SameCycle s (modWindows stepWindow s core sl ctx) core := sameCycle_foldl (fun s k => sameCycle_excPut s core ctx k _) _ s
    rw [k, h]
    rfl
  · next cs h => simp [h]

/-- The meaning of a warp instruction, given the warp that holds the turn. -/
theorem withCx_onTurn {s : State} {w : Warp} (h : OnTurn s w) (k : Cx → Out) :
    withCx s k = k { s := s, core := s.cur.1, slot := s.cur.2, w := w, t := getTeam s s.cur.1 w.team } := by
  unfold withCx
  rw [h.1]
  exact if_neg h.2

/-- The turn's frame holds of a state that differs from s by the turn's warp and by counting. -/
theorem turnFrame_of_counted {s u : State} {w w' : Warp}
    (k : Counted (putWarp s s.cur.1 s.cur.2 w') u s.cur.1 s.cur.2 w.slice w.ctx)
    (y : (getCore u s.cur.1).cycle = (getCore s s.cur.1).cycle.map (fun cs => cs ++ [w.ctx])) : TurnFrame s u w where
  memory a := by
    have h := congrArg (fun x : State => mread x.mem a) k.rest
    exact h
  rest := congrArg (fun x : State => { x with cores := s.cores, slices := s.slices }) k.rest
  cores n hn := (k.cores n hn).trans (getCore_putWarp_other s _ _ hn)
  core := by
    have h := congrArg (fun x : Core =>
      { x with warps := (getCore s s.cur.1).warps, exc := (getCore s s.cur.1).exc, cycle := (getCore s s.cur.1).cycle }) k.here
    rw [getCore_putWarp_same] at h
    exact h
  cycle := y
  warps j hj := (k.warps j hj).trans (getWarp_putWarp_slot s _ _ hj)
  counts j hj := by
    have h := k.counts j hj
    rw [getCore_putWarp_same] at h
    exact h
  slices n hn := k.slices n hn
  slice := k.slice

end Sys2Proof.Machine
end

