-- ==== Sys2Proof/Laws/Counts.lean ====
section
/-!
SUPPORT. What a retirement makes of the count state of its context (05 R111, R113): the events of each class, then the windows.
-/
namespace Sys2Proof.Machine

/-- Two states have the same count state on a core and the same context settings. -/
structure SameCounts (s t : State) (core : Nat) : Prop where
  exc : (getCore t core).exc = (getCore s core).exc
  ctxs : ∀ sl c, getCtx t sl c = getCtx s sl c

theorem SameCounts.refl (s : State) (core : Nat) : SameCounts s s core := ⟨rfl, fun _ _ => rfl⟩

theorem SameCounts.trans {s t u : State} {core : Nat} (a : SameCounts s t core) (b : SameCounts t u core) : SameCounts s u core :=
  ⟨b.exc.trans a.exc, fun sl c => (b.ctxs sl c).trans (a.ctxs sl c)⟩

theorem SameCounts.get {s t : State} {core : Nat} (h : SameCounts s t core) (sl ctx cls : Nat) :
    excGet t core sl ctx cls = excGet s core sl ctx cls := by
  rw [excGet, excGet, h.exc, h.ctxs]

theorem sameCounts_putWarp (s : State) (core slot n : Nat) (w : Warp) : SameCounts s (putWarp s n slot w) core := by
  refine ⟨?_, fun _ _ => rfl⟩
  by_cases h : core = n
  · subst h; simp
  · rw [getCore_putWarp_other s slot w h]

/-- A slice replaced by one with the same contexts. -/
theorem sameCounts_putSlice (s : State) (core sl : Nat) (x : Slice) (h : x.ctxs = (getSlice s sl).ctxs) :
    SameCounts s (putSlice s sl x) core := by
  refine ⟨rfl, fun n c => ?_⟩
  by_cases e : n = sl
  · subst e; simp [getCtx, h]
  · rw [getCtx, getCtx, getSlice_putSlice_other s x e]

theorem sameCounts_raiseVector (s : State) (core sl v : Nat) : SameCounts s (raiseVector s sl v) core := by
  unfold raiseVector
  simp only
  split
  · exact sameCounts_putSlice _ _ _ _ rfl
  · split
    · exact SameCounts.refl ..
    · exact sameCounts_putSlice _ _ _ _ rfl

theorem sameCounts_raiseEvent (s : State) (core sl bit c n cls low : Nat) (high : DWord) :
    SameCounts s (raiseEvent s sl bit c n cls low high) core := by
  unfold raiseEvent
  simp only
  refine SameCounts.trans ?_ (sameCounts_raiseVector ..)
  split <;> exact sameCounts_putSlice _ _ _ _ rfl

theorem sameCounts_takeAction (s : State) (core slot sl ctx cls act : Nat) : SameCounts s (takeAction s core slot sl ctx cls act) core := by
  have pend : SameCounts s (if bitOf act 0 then
      match getWarp s core slot with
      | none => s
      | some w => if liveLanes w = 0 then s else putWarp s core slot { w with pendThr := addPending w.pendThr cls }
    else s) core := by
    split
    · split
      · exact SameCounts.refl ..
      · split
        · exact SameCounts.refl ..
        · exact sameCounts_putWarp ..
    · exact SameCounts.refl ..
  unfold takeAction
  simp only
  split
  · exact pend.trans (sameCounts_raiseEvent ..)
  · exact pend

theorem excGet_excPut_same (s : State) (core sl ctx cls : Nat) (e : ExcState) : excGet (excPut s core ctx cls e) core sl ctx cls = e := by
  simp [excGet]

theorem excGet_excPut_other (s : State) (core sl ctx : Nat) {cls k : Nat} (e : ExcState) (h : k ≠ cls) :
    excGet (excPut s core ctx cls e) core sl ctx k = excGet s core sl ctx k := by
  have ne : ctx * 8 + k ≠ ctx * 8 + cls := by omega
  simp only [excGet, getCore_excPut_same, tfind_tset_other _ _ ne]
  rfl

theorem excGet_countClass (s : State) (core slot sl ctx cls n k : Nat) :
    excGet (countClass s core slot sl ctx cls n) core sl ctx k =
      if k = cls ∧ n ≠ 0 then (countOne (excGet s core sl ctx cls) n).1 else excGet s core sl ctx k := by
  by_cases hn : n = 0
  · simp [countClass, hn]
  · simp only [countClass, hn, if_false, ne_eq, not_false_iff, and_true]
    have put : excGet (excPut s core ctx cls (countOne (excGet s core sl ctx cls) n).1) core sl ctx k =
        if k = cls then (countOne (excGet s core sl ctx cls) n).1 else excGet s core sl ctx k := by
      by_cases h : k = cls
      · subst h; simp [excGet_excPut_same]
      · simp [h, excGet_excPut_other s core sl ctx _ h]
    split
    · rw [(sameCounts_takeAction ..).get]; exact put
    · exact put

/-- A fold over classes changes each class once. -/
theorem excGet_fold (f : State → Nat → State) (g : ExcState → Nat → ExcState) (core sl ctx : Nat)
    (hf : ∀ s j k, excGet (f s j) core sl ctx k = if k = j then g (excGet s core sl ctx j) j else excGet s core sl ctx k)
    (ks : List Nat) (nd : ks.Nodup) (s : State) (k : Nat) :
    excGet (ks.foldl f s) core sl ctx k = if k ∈ ks then g (excGet s core sl ctx k) k else excGet s core sl ctx k := by
  induction ks generalizing s with
  | nil => simp
  | cons j ks ih =>
    obtain ⟨hj, nd⟩ := List.nodup_cons.mp nd
    rw [List.foldl_cons, ih nd, hf]
    by_cases h : k = j
    · subst h; simp [hj]
    · simp [h]

/-- The counts of a retirement: each class's events, then its window. -/
theorem excGet_retirement (s : State) (core slot sl ctx : Nat) (ev : Events) {cls : Nat} (h : cls < 8) :
    excGet (stepWindows (countEvents s core slot sl ctx ev) core sl ctx) core sl ctx cls =
      countedClass (getCore s core).cycle.isSome (excGet s core sl ctx cls) (ev.filter (· == cls)).length := by
  have counted : excGet (countEvents s core slot sl ctx ev) core sl ctx cls =
      if (ev.filter (· == cls)).length = 0 then excGet s core sl ctx cls
      else (countOne (excGet s core sl ctx cls) (ev.filter (· == cls)).length).1 := by
    rw [countEvents, excGet_fold _ (fun e j => if (ev.filter (· == j)).length ≠ 0 then (countOne e (ev.filter (· == j)).length).1 else e)
      core sl ctx ?_ _ List.nodup_range]
    · simp only [List.mem_range, h, if_true]
      by_cases e : (ev.filter (· == cls)).length = 0 <;> simp only [e, ne_eq, not_true, if_false, if_true, not_false_iff]
    · intro s j k
      rw [excGet_countClass]
      by_cases e : k = j
      · subst e; by_cases z : (ev.filter (· == k)).length = 0 <;> simp [z]
      · simp [e]
  have cycle : (getCore (countEvents s core slot sl ctx ev) core).cycle = (getCore s core).cycle := sameCycle_countEvents ..
  unfold stepWindows
  split
  · next e =>
    rw [cycle] at e
    rw [modWindows, excGet_fold _ (fun x _ => stepWindow x) core sl ctx ?_ _ List.nodup_range, counted, e]
    · simp only [List.mem_range, h, if_true]
      rfl
    · intro s j k
      by_cases e : k = j
      · subst e; simp [excGet_excPut_same]
      · simp [e, excGet_excPut_other s core sl ctx _ e]
  · next cs e =>
    rw [cycle] at e
    have same : ∀ t : State, excGet (putCore t core { getCore t core with cycle := some (cs ++ [ctx]) }) core sl ctx cls =
        excGet t core sl ctx cls := fun t => by simp [excGet, getCtx]
    rw [e, same, counted]
    rfl

/-- The counts of a retirement from the turn. -/
theorem eventsCounted_retire (s : State) (w w' : Warp) (ev : Events) :
    EventsCounted s (stepWindows (countEvents (putWarp s s.cur.1 s.cur.2 w') s.cur.1 s.cur.2 w.slice w.ctx ev) s.cur.1 w.slice w.ctx) w ev :=
  fun cls h => by rw [excGet_retirement _ _ _ _ _ _ h, (sameCounts_putWarp ..).get, sameCycle_putWarp]

/-- The cycle that a retirement from the turn is noted in. -/
theorem cycle_retire (s : State) (w w' : Warp) (ev : Events) :
    (getCore (stepWindows (countEvents (putWarp s s.cur.1 s.cur.2 w') s.cur.1 s.cur.2 w.slice w.ctx ev) s.cur.1 w.slice w.ctx)
      s.cur.1).cycle = (getCore s s.cur.1).cycle.map (fun cs => cs ++ [w.ctx]) := by
  rw [cycle_stepWindows, sameCycle_countEvents, sameCycle_putWarp]

/-- A retirement from the turn, with its counts. -/
theorem retire_counts {s : State} {w : Warp} (t : Team) (w' : Warp) (ev : Events) :
    ∃ u x, (Cx.mk s s.cur.1 s.cur.2 w t).retire w' ev = .next u ∧ getWarp u s.cur.1 s.cur.2 = some x ∧ TurnFrame s u w ∧
      EventsCounted s u w ev ∧ x.noPend = w'.noPend := by
  have k : Counted (putWarp s s.cur.1 s.cur.2 w')
      (stepWindows (countEvents (putWarp s s.cur.1 s.cur.2 w') s.cur.1 s.cur.2 w.slice w.ctx ev) s.cur.1 w.slice w.ctx)
      s.cur.1 s.cur.2 w.slice w.ctx := (counted_countEvents ..).trans (counted_stepWindows ..)
  have hw := k.warp
  rw [getWarp_putWarp_same] at hw
  obtain ⟨x, hx, e⟩ := Option.map_eq_some_iff.mp hw
  exact ⟨_, x, rfl, hx, turnFrame_of_counted k (cycle_retire s w w' ev), eventsCounted_retire s w w' ev, e⟩

/-- A retirement that counts no event. -/
theorem retire_silent {s : State} {w : Warp} (t : Team) (w' : Warp) :
    ∃ u, (Cx.mk s s.cur.1 s.cur.2 w t).retire w' [] = .next u ∧ getWarp u s.cur.1 s.cur.2 = some w' ∧ TurnFrame s u w ∧
      EventsCounted s u w [] ∧ u.slices = s.slices := by
  have k : Counted (putWarp s s.cur.1 s.cur.2 w') (stepWindows (putWarp s s.cur.1 s.cur.2 w') s.cur.1 w.slice w.ctx)
      s.cur.1 s.cur.2 w.slice w.ctx := counted_stepWindows ..
  have c := eventsCounted_retire s w w' []
  have y := cycle_retire s w w' []
  rw [countEvents_nil] at c y
  refine ⟨stepWindows (putWarp s s.cur.1 s.cur.2 w') s.cur.1 w.slice w.ctx, ?_, by simp, turnFrame_of_counted k y, c, slices_stepWindows ..⟩
  simp [Cx.retire, retireWith]

end Sys2Proof.Machine
end

