-- ==== Sys2Proof/Laws/Registers.lean ====
section
/-!
SUPPORT. What writing a register and moving a path on leave in a warp, and the vector, predicate and uniform operations that are built
of them.
-/
namespace Sys2Proof.Machine

@[simp] theorem pcOf_setPcs (w : Warp) (m : LaneMask) (pc : DWord) {l : Nat} (h : l < 64) :
    pcOf (setPcs w m pc) l = if m.getLsbD l then pc else pcOf w l := by
  simp [pcOf, setPcs, laneList, h]

/-- Lanes at and above 64 do not exist. -/
theorem pcOf_advance (w : Warp) (len : Nat) {l : Nat} (h : l < 64) :
    pcOf (advance len w) l = if w.path.getLsbD l then pathPc w + BitVec.ofNat 64 len else pcOf w l := by
  simp [advance, h]

@[simp] theorem readLane_writeV_other (w : Warp) {d r : Nat} (act zeroed : LaneMask) (f : Nat → Word) (h : r ≠ d) :
    readV (writeV w d act zeroed f) r = readV w r := by
  simp [readV, writeV, h]

theorem readLane_writeV_same (w : Warp) (d : Nat) (act zeroed : LaneMask) (f : Nat → Word) {l : Nat} (h : l < 64)
    (p : w.present.getLsbD l = true) :
    readLane (writeV w d act zeroed f) d l = if act.getLsbD l then f l else if zeroed.getLsbD l then 0 else readLane w d l := by
  have e : readV (writeV w d act zeroed f) d = mergeLanes w act zeroed f (readV w d) := by simp [readV, writeV]
  rw [readLane, e, mergeLanes, laneGet_laneList _ h, p]
  rfl

@[simp] theorem still_noPend (w : Warp) : w.noPend.still = w.still := rfl

@[simp] theorem still_setPcs (w : Warp) (m : LaneMask) (pc : DWord) : (setPcs w m pc).still = w.still := rfl

@[simp] theorem still_advance (len : Nat) (w : Warp) : (advance len w).still = w.still := rfl

@[simp] theorem still_bump (w : Warp) : (bump w).still = w.still := rfl

@[simp] theorem sansV_writeV (w : Warp) (d : Nat) (act zeroed : LaneMask) (f : Nat → Word) :
    (writeV w d act zeroed f).still.sansV = w.still.sansV := rfl

@[simp] theorem sansS_writeS (w : Warp) (d : Nat) (x : DWord) : (writeS w d x).still.sansS = w.still.sansS := by
  unfold writeS; split <;> rfl

@[simp] theorem sansP_writeP (w : Warp) (d : Nat) (act zeroed : LaneMask) (f : Nat → Bool) :
    (writeP w d act zeroed f).still.sansP = w.still.sansP := by
  unfold writeP; split <;> rfl

/-- Warps equal but for pending traps agree in every other field. -/
theorem noPend_field {α : Type} (f : Warp → α) (hf : ∀ w, f w.noPend = f w) {x y : Warp} (e : x.noPend = y.noPend) : f x = f y := by
  rw [← hf x, ← hf y, e]

/-- What retirement makes of the count and the PCs. -/
theorem movedOn_of_noPend {w x y : Warp} (len : Nat) (path : y.path = w.path) (pcs : y.pcs = w.pcs) (ret : y.retired = w.retired + 1)
    (e : x.noPend = (advance len y).noPend) : MovedOn w x len := by
  have pcsx : x.pcs = (advance len y).pcs := noPend_field Warp.pcs (fun _ => rfl) e
  have retx : x.retired = (advance len y).retired := noPend_field Warp.retired (fun _ => rfl) e
  refine ⟨retx.trans ret, fun l h => ?_⟩
  have same : ∀ k, pcOf y k = pcOf w k := fun k => by rw [pcOf, pcOf, pcs]
  have here : pathPc y = pathPc w := by
    unfold pathPc
    rw [path]
    split <;> simp [same]
  rw [pcOf, pcsx]
  exact (pcOf_advance y len h).trans (by rw [path, here, same])

/-- A v register written, and the path moved on. -/
theorem wroteV_writeV (w : Warp) (d len : Nat) (act zeroed : LaneMask) (f : Nat → Word) (x : Warp)
    (e : x.noPend = (advance len (writeV (bump w) d act zeroed f)).noPend) :
    MovedOn w x len ∧ WroteV w x d act zeroed f := by
  have v : x.v = (advance len (writeV (bump w) d act zeroed f)).v := noPend_field Warp.v (fun _ => rfl) e
  have q : x.vPoison = (advance len (writeV (bump w) d act zeroed f)).vPoison := noPend_field Warp.vPoison (fun _ => rfl) e
  refine ⟨movedOn_of_noPend (y := writeV (bump w) d act zeroed f) len rfl rfl rfl e, fun l h p => ?_, ?_, fun r h => ⟨?_, ?_⟩, ?_⟩
  · rw [readLane, readV, v]
    exact readLane_writeV_same (bump w) d act zeroed f h p
  · rw [q]
    exact tget_tset_same ..
  · rw [readV, v]
    exact readLane_writeV_other (bump w) act zeroed f h
  · rw [q]
    exact tget_tset_other _ _ _ h
  · have h : x.still = (advance len (writeV (bump w) d act zeroed f)).still := noPend_field Warp.still (fun _ => rfl) e
    rw [h]
    simp

/-- Reading lanes as a set. -/
theorem getLsbD_maskOf (p : Nat → Bool) {l : Nat} (h : l < 64) : (maskOf p).getLsbD l = p l := by
  have bit : ∀ n, ∀ k, ((List.range n).foldl (fun m j => if p j then m + 2 ^ j else m) 0).testBit k = (decide (k < n) && p k) := by
    intro n
    induction n with
    | zero => simp
    | succ n ih =>
      intro k
      have low : (List.range n).foldl (fun m j => if p j then m + 2 ^ j else m) 0 < 2 ^ n :=
        Nat.lt_pow_two_of_testBit _ (fun i hi => by rw [ih]; simp; omega)
      rw [List.range_succ, List.foldl_append, List.foldl_cons, List.foldl_nil]
      generalize (List.range n).foldl (fun m j => if p j then m + 2 ^ j else m) 0 = m at ih low
      by_cases hp : p n = true
      · simp only [hp, if_true]
        rw [Nat.add_comm]
        by_cases hk : k = n
        · subst hk; rw [Nat.testBit_two_pow_add_eq, ih]; simp [hp]
        · by_cases lt : k < n
          · rw [Nat.testBit_two_pow_add_gt lt, ih]; simp [lt]; omega
          · have big : 2 ^ (n + 1) ≤ 2 ^ k := Nat.pow_le_pow_right (by omega) (by omega)
            rw [Nat.pow_succ] at big
            rw [Nat.testBit_lt_two_pow (by omega)]; simp; omega
      · rw [if_neg hp, ih]
        by_cases hk : k = n
        · subst hk; simp [hp]
        · by_cases lt : k < n
          · simp [lt]; omega
          · simp [lt]; omega
  rw [maskOf, BitVec.getLsbD_ofNat, bit]
  simp [h]

/-- A register beyond p0 that is written reads back lane by lane. -/
theorem readP_writeP_same (w : Warp) {d : Nat} (act zeroed : LaneMask) (f : Nat → Bool) (hd : d ≠ 0) {l : Nat} (h : l < 64)
    (p : w.present.getLsbD l = true) :
    (readP (writeP w d act zeroed f) d).getLsbD l =
      if act.getLsbD l then f l else if zeroed.getLsbD l then false else (readP w d).getLsbD l := by
  simp only [writeP, readP, hd, if_false, tget_tset_same, BitVec.getLsbD_and, getLsbD_maskOf _ h, p, Bool.true_and, Bool.and_true]

theorem readP_writeP_other (w : Warp) {d r : Nat} (act zeroed : LaneMask) (f : Nat → Bool) (h : r ≠ d) :
    readP (writeP w d act zeroed f) r = readP w r := by
  unfold writeP
  split
  · rfl
  · simp only [readP, tget_tset_other _ _ _ h]

/-- A predicate written, and the path moved on. -/
theorem wroteP_writeP (w : Warp) (d len : Nat) (act zeroed : LaneMask) (f : Nat → Bool) (x : Warp)
    (e : x.noPend = (advance len (writeP (bump w) d act zeroed f)).noPend) :
    MovedOn w x len ∧ WroteP w x d act zeroed f := by
  have rd : ∀ r, readP x r = readP (advance len (writeP (bump w) d act zeroed f)) r :=
    fun r => noPend_field (readP · r) (fun _ => rfl) e
  have same : (writeP (bump w) d act zeroed f).path = w.path ∧ (writeP (bump w) d act zeroed f).pcs = w.pcs ∧
      (writeP (bump w) d act zeroed f).retired = w.retired + 1 := by
    unfold writeP
    split <;> exact ⟨rfl, rfl, rfl⟩
  have q : x.wtPoison = (writeP (bump w) d act zeroed f).wtPoison :=
    noPend_field (y := advance len (writeP (bump w) d act zeroed f)) Warp.wtPoison (fun _ => rfl) e
  refine ⟨movedOn_of_noPend len same.1 same.2.1 same.2.2 e, fun hd l h p => ?_, fun l h => ?_, fun r h => ?_, fun k h => ?_, fun hd => ?_, ?_⟩
  · rw [rd]
    exact readP_writeP_same (bump w) act zeroed f hd h p
  · have at_ : ∀ y : Warp, y.present = w.present → (readP y d).getLsbD l = false := by
      intro y g
      simp [readP, g, h]
    rw [rd]
    refine at_ _ ?_
    unfold writeP
    split <;> rfl
  · rw [rd]
    by_cases g : r = d
    · obtain rfl : r = 0 := h.resolve_left (not_not_intro g)
      subst g
      rfl
    · exact readP_writeP_other (bump w) act zeroed f g
  · rw [q, writeP]
    split
    · rfl
    · have g : k ≠ 64 + d ∧ k ≠ 96 + d := h.elim (fun g => absurd g ‹_›) id
      simp [g, bump]
  · rw [q, writeP, if_neg hd]
    simp
  · have h : x.still = (advance len (writeP (bump w) d act zeroed f)).still := noPend_field Warp.still (fun _ => rfl) e
    rw [h]
    simp

theorem readS_writeS_same (w : Warp) {d : Nat} (x : DWord) (h : d ≠ 0) : readS (writeS w d x) d = x := by
  simp [readS, writeS, h]

theorem readS_writeS_other (w : Warp) {d r : Nat} (x : DWord) (h : r ≠ d) : readS (writeS w d x) r = readS w r := by
  unfold writeS
  split
  · rfl
  · simp [readS, h]

/-- An s register written, and the path moved on. -/
theorem wroteS_writeS (w : Warp) (d len : Nat) (v : DWord) (x : Warp)
    (e : x.noPend = (advance len (writeS (bump w) d v)).noPend) : MovedOn w x len ∧ WroteS w x d v := by
  have rd : ∀ r, readS x r = readS (advance len (writeS (bump w) d v)) r := fun r => noPend_field (readS · r) (fun _ => rfl) e
  have same : (writeS (bump w) d v).path = w.path ∧ (writeS (bump w) d v).pcs = w.pcs ∧
      (writeS (bump w) d v).retired = w.retired + 1 := by
    unfold writeS
    split <;> exact ⟨rfl, rfl, rfl⟩
  have q : x.wtPoison = (writeS (bump w) d v).wtPoison :=
    noPend_field (y := advance len (writeS (bump w) d v)) Warp.wtPoison (fun _ => rfl) e
  refine ⟨movedOn_of_noPend len same.1 same.2.1 same.2.2 e, fun hd => ?_, rfl, fun r h => ?_, fun k h => ?_, fun hd => ?_, ?_⟩
  · rw [rd]
    exact readS_writeS_same (bump w) v hd
  · rw [rd]
    exact readS_writeS_other (bump w) v h
  · rw [q, writeS]
    split
    · rfl
    · have g : k ≠ d ∧ k ≠ 128 + d := h.elim (fun g => absurd g ‹_›) id
      simp [g, bump]
  · rw [q, writeS, if_neg hd]
    simp
  · have h : x.still = (advance len (writeS (bump w) d v)).still := noPend_field Warp.still (fun _ => rfl) e
    rw [h]
    simp

/-- A register number below the allotment is a group of one. -/
theorem groupOk_one (w : Warp) {r : Nat} (h : r < w.areg) : groupOk w r 1 = true := by
  simp only [groupOk, Nat.mod_one, beq_self_eq_true, Bool.true_and, decide_eq_true_eq]
  omega

/-- The checks of a vector instruction whose words can be read let it go on. -/
theorem vchecks_readable (c : Cx) {act zeroed : LaneMask} {dst : List Nat} {groups : List (Nat × Nat)} {srcV srcS srcP : List Nat}
    (hg : groups.all (fun g => groupOk c.w g.1 g.2) = true) (ht : poisonedTable c.w srcS srcP = false)
    (hp : poisonedLanes c.w act zeroed srcV dst = 0) (k : Out) : c.vchecks act zeroed dst groups srcV srcS srcP k = k := by
  simp only [Cx.vchecks, hg, ht, hp]
  rfl

theorem groups_readable {w : Warp} {rs : List Nat} (h : ∀ r, r ∈ rs → r < w.areg) :
    (rs.map (fun r => (r, 1))).all (fun g => groupOk w g.1 g.2) = true := by
  simp only [List.all_eq_true, List.mem_map]
  rintro g ⟨n, hn, rfl⟩
  exact groupOk_one w (h n hn)

/-- A vector operation retires and writes its register. -/
theorem vectorWith_retires {s : State} {w : Warp} (h : OnTurn s w) (tab : List Nat) (q : Option APre) (d : Nat) (srcs : List Nat)
    (f : Cx → Nat → Nat × Events) (r : Readable w (activeA w q) (zeroedA w q) (d :: srcs) [d] srcs tab (guardRegA q)) :
    ∃ t w', vectorWith tab q d srcs f s = .next t ∧ getWarp t s.cur.1 s.cur.2 = some w' ∧ TurnFrame s t w ∧
      EventsCounted s t w ((lanesOf (activeA w q)).flatMap (fun l => (f ⟨s, s.cur.1, s.cur.2, w, getTeam s s.cur.1 w.team⟩ l).2)) ∧
      MovedOn w w' (lenOf q) ∧
      WroteV w w' d (activeA w q) (zeroedA w q) (fun l => BitVec.ofNat 32 (f ⟨s, s.cur.1, s.cur.2, w, getTeam s s.cur.1 w.team⟩ l).1) := by
  obtain ⟨u, x, hu, hx, hf, hc, e⟩ := retire_counts (s := s) (w := w) (getTeam s s.cur.1 w.team)
    (advance (lenOf q) (writeV (bump w) d (activeA w q) (zeroedA w q)
      (fun l => BitVec.ofNat 32 (f ⟨s, s.cur.1, s.cur.2, w, getTeam s s.cur.1 w.team⟩ l).1)))
    ((lanesOf (activeA w q)).flatMap (fun l => (f ⟨s, s.cur.1, s.cur.2, w, getTeam s s.cur.1 w.team⟩ l).2))
  refine ⟨u, x, ?_, hx, hf, hc, wroteV_writeV w d _ _ _ _ x e⟩
  rw [← hu, vectorWith, withCx_onTurn h]
  exact vchecks_readable ⟨s, s.cur.1, s.cur.2, w, getTeam s s.cur.1 w.team⟩ (groups_readable r.1) r.2.1 r.2.2 _

/-- A vector operation without events retires quietly. -/
theorem vectorPure_retires {s : State} {w : Warp} (h : OnTurn s w) (q : Option APre) (d : Nat) (srcs : List Nat)
    (f : Cx → Nat → Word) (r : VectorReady w q d srcs) :
    ∃ t w', vectorPure q d srcs f s = .next t ∧ getWarp t s.cur.1 s.cur.2 = some w' ∧ TurnFrame s t w ∧ EventsCounted s t w [] ∧
      t.slices = s.slices ∧ w'.pendThr = w.pendThr ∧ MovedOn w w' (lenOf q) ∧
      WroteV w w' d (activeA w q) (zeroedA w q) (f ⟨s, s.cur.1, s.cur.2, w, getTeam s s.cur.1 w.team⟩) := by
  obtain ⟨u, hu, hx, hf, hc, hs⟩ := retire_silent (s := s) (w := w) (getTeam s s.cur.1 w.team)
    (advance (lenOf q) (writeV (bump w) d (activeA w q) (zeroedA w q) (f ⟨s, s.cur.1, s.cur.2, w, getTeam s s.cur.1 w.team⟩)))
  refine ⟨u, _, ?_, hx, hf, hc, hs, rfl, wroteV_writeV w d _ _ _ _ _ rfl⟩
  rw [← hu, vectorPure, vectorWith, withCx_onTurn h]
  have none : ∀ l : List Nat, l.flatMap (fun _ => ([] : Events)) = [] := fun l => by simp
  simp only [none, BitVec.ofNat_toNat, BitVec.setWidth_eq]
  exact vchecks_readable ⟨s, s.cur.1, s.cur.2, w, getTeam s s.cur.1 w.team⟩ (groups_readable r.1) r.2.1 r.2.2 _

/-- A predicate operation whose sources can be read retires quietly. -/
theorem predicateOp_retires {s : State} {w : Warp} (h : OnTurn s w) (q : Option APre) (d : Nat) (srcV srcP : List Nat)
    (f : Cx → Nat → Bool)
    (r : Readable w (activeA w q) 0 srcV [] srcV [] (guardRegA q ++ keptPredicate w (activeA w q) (zeroedA w q) d ++ srcP)) :
    ∃ t w', predicateOp q d srcV srcP f s = .next t ∧ getWarp t s.cur.1 s.cur.2 = some w' ∧ TurnFrame s t w ∧ EventsCounted s t w [] ∧
      t.slices = s.slices ∧ w'.pendThr = w.pendThr ∧ MovedOn w w' (lenOf q) ∧
      WroteP w w' d (activeA w q) (zeroedA w q) (f ⟨s, s.cur.1, s.cur.2, w, getTeam s s.cur.1 w.team⟩) := by
  obtain ⟨u, hu, hx, hf, hc, hs⟩ := retire_silent (s := s) (w := w) (getTeam s s.cur.1 w.team)
    (advance (lenOf q) (writeP (bump w) d (activeA w q) (zeroedA w q) (f ⟨s, s.cur.1, s.cur.2, w, getTeam s s.cur.1 w.team⟩)))
  refine ⟨u, _, ?_, hx, hf, hc, hs, ?_, wroteP_writeP w d _ _ _ _ _ rfl⟩
  · rw [← hu, predicateOp, withCx_onTurn h]
    exact vchecks_readable ⟨s, s.cur.1, s.cur.2, w, getTeam s s.cur.1 w.team⟩ (groups_readable r.1) r.2.1 r.2.2 _
  · simp only [advance, setPcs, writeP]
    split <;> rfl

/-- A uniform operation whose sources carry no poison retires quietly. -/
theorem uniformOp_retires {s : State} {w : Warp} (h : OnTurn s w) (d : Nat) (srcs : List Nat) (f : Cx → DWord)
    (r : poisonedTable w srcs [] = false) :
    ∃ t w', uniformOp d srcs f s = .next t ∧ getWarp t s.cur.1 s.cur.2 = some w' ∧ TurnFrame s t w ∧ EventsCounted s t w [] ∧
      t.slices = s.slices ∧ w'.pendThr = w.pendThr ∧ MovedOn w w' 4 ∧
      WroteS w w' d (f ⟨s, s.cur.1, s.cur.2, w, getTeam s s.cur.1 w.team⟩) := by
  obtain ⟨u, hu, hx, hf, hc, hs⟩ := retire_silent (s := s) (w := w) (getTeam s s.cur.1 w.team)
    (advance 4 (writeS (bump w) d (f ⟨s, s.cur.1, s.cur.2, w, getTeam s s.cur.1 w.team⟩)))
  refine ⟨u, _, ?_, hx, hf, hc, hs, ?_, wroteS_writeS w d _ _ _ rfl⟩
  · rw [← hu, uniformOp, withCx_onTurn h, Cx.uchecks]
    simp only [r, Bool.false_eq_true, if_false]
  · simp only [advance, setPcs, writeS]
    split <;> rfl

end Sys2Proof.Machine
end

