-- ==== Sys2Proof/Tests/Slice0.lean ====
section
/-!
SUPPORT. Tests: terms that WellFormed refuses, words that decode to their instructions, single steps with results taken from the spec's examples, and
for every statement states and operands that meet its hypotheses.
-/
namespace Sys2Proof.Machine

set_option Elab.async false

/-! ## Terms that are not well formed -/

def tPre : APre := { guard := 1, neg := false, zero := false, rnd := 0, sat := 0, vc := 0 }
def tMemPre : MPre := { guard := 1, neg := false, scope := 0, order := 0, hint := 0, off := 0 }

theorem test_refuses_prefix_fields :
    wellFormed (.vfadd (some { tPre with rnd := 6 }) 1 2 3) = false ∧ wellFormed (.vfadd (some { tPre with sat := 3 }) 1 2 3) = false ∧
    wellFormed (.vadd (some { tPre with rnd := 1 }) 1 2 3) = false ∧ wellFormed (.vadd (some { tPre with sat := 1 }) 1 2 3) = false ∧
    wellFormed (.vadd (some { tPre with vc := 4 }) 1 2 3) = false ∧ wellFormed (.exit (some { tPre with zero := true })) = false ∧
    wellFormed (.vfadd (some { tPre with vc := 4 }) 1 2 3) = false ∧ wellFormed (.vmad (some { tPre with rnd := 1 }) 1 2 3) = false := by decide

theorem test_refuses_memory_prefix :
    wellFormed (.vld (some { tMemPre with scope := 7 }) 1 2 3 0 0) = false ∧ wellFormed (.vld (some { tMemPre with order := 2 }) 1 2 3 0 0) = false ∧
    wellFormed (.vst (some { tMemPre with order := 1 }) 1 2 3 0 0) = false ∧ wellFormed (.gath (some { tMemPre with order := 1 }) 1 2 3 0) = false := by
  decide

theorem test_refuses_conversions :
    wellFormed (.vcvt none 1 2 7 0 0 0 0) = false ∧ wellFormed (.vcvt none 1 2 0 11 0 0 0) = false ∧
    wellFormed (.vcvt none 1 2 1 1 0 0 0) = false ∧ wellFormed (.vcvt none 1 2 1 2 1 1 0) = false ∧
    wellFormed (.vcvt none 1 2 0 1 1 0 0) = false ∧ wellFormed (.vcvt none 1 2 1 0 1 0 2) = false ∧
    wellFormed (.vcvt none 1 2 0 5 0 1 0) = false ∧ wellFormed (.vcvt none 1 2 0 1 0 1 2) = false ∧
    wellFormed (.vcvt none 1 2 0 1 0 0 1) = false := by decide

theorem test_refuses_vector_fields :
    wellFormed (.vcmp none 3 1 2 3 0) = false ∧ wellFormed (.vcmp none 2 1 2 3 8) = false ∧ wellFormed (.vcmp none 0 1 2 3 6) = false ∧
    wellFormed (.vld none 1 2 3 7 0) = false ∧ wellFormed (.vld none 1 2 3 0 3) = false ∧ wellFormed (.vst none 1 2 3 5 0) = false ∧
    wellFormed (.vst none 1 2 3 0 3) = false ∧ wellFormed (.vatom none 1 2 3 12) = false ∧ wellFormed (.gath none 1 2 3 3) = false ∧
    wellFormed (.vscan none 1 2 0 3) = false ∧ wellFormed (.vote none 3 1 2 0) = false := by decide

theorem test_refuses_uniform_fields :
    wellFormed (.uld 1 2 7 0) = false ∧ wellFormed (.ust 1 2 4 0) = false ∧ wellFormed (.uatom 2 3 12 0 0) = false ∧
    wellFormed (.uatom 2 3 0 7 0) = false ∧ wellFormed (.uatom 3 3 9 0 0) = false ∧ wellFormed (.uatom 0 3 9 0 0) = false ∧
    wellFormed (.fence 0 0) = false ∧ wellFormed (.fence 7 0) = false ∧ wellFormed (.fence 1 3) = false ∧
    wellFormed (.ub 6 1 2 0) = false ∧ wellFormed (.jmpi 63) = false ∧ wellFormed (.vshrink 0 13) = false ∧
    wellFormed (.vshrink 1 9) = false ∧ wellFormed (.vgrow 0 13) = false ∧ wellFormed (.vgrow 1 9) = false ∧
    wellFormed (.sread 1 0x34) = false ∧ wellFormed (.swrite 1 0x34) = false ∧ wellFormed (.cpy 0 1 62) = false ∧
    wellFormed (.cpy 0 1 0) = false ∧ wellFormed (.coll 0 62) = false ∧ wellFormed (.coll 0 0) = false ∧ wellFormed (.accz 100 28) = false ∧
    wellFormed (.cwb 1 2 1) = false ∧ wellFormed (.cwb 1 2 7) = false ∧ wellFormed (.cinv 1 2 1) = false ∧ wellFormed (.pref 1 2 3) = false := by
  decide

theorem test_refuses_units :
    wellFormed (.pathYield 128 0) = false ∧ wellFormed (.pathYield 0 56) = false ∧ wellFormed (.warpMoveIn 0 2) = false ∧
    wellFormed (.spawnBinTimer 0 16) = false ∧ wellFormed (.permitGrant 2) = false ∧ wellFormed (.mePassStart 32) = false ∧
    wellFormed (.engineStop 0 0 (.copy 32)) = false ∧ wellFormed (.engineStop 0 0 (.coll 2)) = false ∧
    wellFormed (.engineStop 0 0 (.core 128)) = false ∧ wellFormed (.engineStop 0 0 (.me 32)) = false ∧
    wellFormed (.coreReset 16 0) = false ∧ wellFormed (.quiesce 0 16) = false ∧ wellFormed (.kick 0 64) = false ∧
    wellFormed (.sensorUpdate 25 none) = false ∧ wellFormed (.ualinkPortDown 8) = false ∧
    wellFormed (.routingEntryWrite 0 64 0) = false ∧ wellFormed (.settingReachesCore 0 0 8) = false := by decide

theorem test_refuses_requests :
    wellFormed (.hostRequest .a (.read 0x7F 2)) = false ∧ wellFormed (.hostRequest .a (.read 0 0)) = false ∧
    wellFormed (.hostRequest .a (.write (2 ^ 51 + 2 ^ 64) [0])) = false ∧ wellFormed (.hostRequest .a (.offStream 16)) = false ∧
    wellFormed (.hostRequest .a (.endSession 18)) = false ∧ wellFormed (.ualinkRequest 0 0 (.atomic 2 0 1 0 0)) = false ∧
    wellFormed (.ualinkRequest 0 0 (.read 0 129)) = false ∧ wellFormed (.ualinkRequest 0 0 (.atomic 4 11 1 0 0)) = false ∧
    wellFormed (.ualinkRequest 0 0 (.atomic 0 12 1 0 0)) = false ∧ wellFormed (.registerWrite (.pf0 .a 4) 0) = false ∧
    wellFormed (.registerWrite (.vf 16 0) 0) = false ∧ wellFormed (.memoryUncorrectableError 64 false) = false ∧
    wellFormed (.memoryUncorrectableError (2 ^ 52) false) = false := by decide

/-- Two words read as an instruction. -/
def readsTo (w x : Nat) (i : Instr) : Bool :=
  match decode w x with
  | .ok j => decide (j = i)
  | .error _ => false

/-- Two words are refused with a sub-code. -/
def refusedAs (w x sub : Nat) : Bool :=
  match decode w x with
  | .ok _ => false
  | .error e => decide (e.sub = sub)

/-! ## Words of the reference, each the example of its entry -/

theorem test_decode_integer : readsTo 0x02142810 0 (.vadd none 5 5 1) ∧ readsTo 0x02143071 0 (.vsub none 5 6 7) ∧
    readsTo 0x06081FFC 0 (.vaddi none 2 3 0x7FC) ∧ readsTo 0x0214300A 0 (.vabs none 5 6) ∧
    readsTo 0x0214300B 0 (.vclz none 5 6) ∧ readsTo 0x0214300C 0 (.vpopc none 5 6) ∧
    readsTo 0x7E000100 0x02143075 (.vmad (some { tPre with guard := 0, vc := 8 }) 5 6 7) := by decide

theorem test_decode_logic : readsTo 0x04143070 0 (.vand none 5 6 7) ∧ readsTo 0x0E081804 0 (.vshlImm none 2 3 4) ∧
    readsTo 0x0E081C1F 0 (.vsarImm none 2 3 31) ∧ readsTo 0x04143077 0 (.vbfeN none 5 6 7) ∧
    readsTo 0x0C081FFF 0 (.vxori none 2 3 0x7FF) ∧ readsTo 0x1C143073 0 (.vsel none 5 6 7 3) ∧
    readsTo 0x1E000004 0 (.vmovTid none 0) := by decide

theorem test_decode_float : readsTo 0x12143073 0 (.vffma none 5 6 7) ∧ readsTo 0x12143074 0 (.vfmin none 5 6 7) ∧
    readsTo 0x14143003 0 (.vexp2 none 5 6) ∧ readsTo 0x14143006 0 (.vact none 5 6) ∧
    readsTo 0x1618_2050 0 (.vpkadd none 6 4 5 0) ∧ readsTo 0x7E000100 0x1614307A (.vpkfma (some { tPre with guard := 0, vc := 8 }) 5 6 7 2) := by decide

theorem test_decode_predicates : readsTo 0x1B0C2052 0 (.vcmp none 2 3 4 5 2) ∧ readsTo 0x20400010 0 (.elect none 4) ∧
    readsTo 0x20321408 0 (.plog none 3 4 5 8) := by decide

theorem test_decode_lanes : readsTo 0x2C0C2053 0 (.shfl none 3 4 5 0 3) ∧ readsTo 0x340C205C 0 (.bcast none 3 4 5 3) ∧
    readsTo 0x2E0C100D 0 (.vred none 3 2 3 1) ∧ readsTo 0x300C1001 0 (.vscan none 3 2 0 1) ∧
    readsTo 0x3214180D 0 (.vote none 5 3 3 1) := by decide

theorem test_decode_deep_and_matrix : readsTo 0x2A1C1901 0 (.drdTrp none 7 3 16) ∧ readsTo 0x281C412A 0 (.gath none 7 4 9 2) ∧
    readsTo 0x7E200000 0x36008000 (.mxissue (some { tPre with guard := 4 }) 16) ∧ readsTo 0x38143000 0 (.accrd none 5 6) ∧
    readsTo 0xCE100800 0 (.accz 4 1) ∧ readsTo 0xC6208380 0 (.wload 1 4 7) ∧ readsTo 0xC80C4800 0 (.mxmeta 6 9) := by decide

theorem test_decode_control : readsTo 0x3A800006 0 (.jenr 2 6) ∧ readsTo 0x3AA00000 0 (.jwait 2) ∧
    readsTo 0xA000A000 0 (.jmpi 5) ∧ readsTo 0xA2001000 0 (.barsync 0 0) ∧ readsTo 0xA2000900 0 (.barwait 0 2) ∧
    readsTo 0x400040A0 0 (.spawn none 4 5) ∧ readsTo 0xAE000001 0 (.tret 1) ∧ readsTo 0xB0000000 0 .bkpt ∧
    readsTo 0xAC000005 0 (.trap 5) := by decide

theorem test_decode_uniform : readsTo 0x8218_9FFF 0 (.uaddi 3 4 0x1FFF) ∧ readsTo 0x8A18903F 0 (.usarImm 3 4 63) ∧
    readsTo 0x8C1FFFFE 0 (.umovi 3 0x7FFFE) ∧ readsTo 0x8E1C0000 7 (.ulit 3 1 7) ∧
    readsTo 0x90189000 0 (.ufromv 3 9 0) ∧ readsTo 0x96308090 0 (.uatom 6 4 0 4 2) ∧ readsTo 0x98001400 0 (.fence 5 0) := by decide

theorem test_decode_system : readsTo 0xA8200007 0 (.sread 4 7) ∧ readsTo 0xAA008008 0 (.swrite 4 8) ∧
    readsTo 0xB4000000 0 (.waitc 0 0) ∧ readsTo 0xB620A001 0 (.waitt 4 5 1) ∧ readsTo 0xB8380000 0 (.tfirst 7) ∧
    readsTo 0xBA00E000 0 (.tclr 7) ∧ readsTo 0xBE054900 0 (.tdget 2 5 9) ∧ readsTo 0xC0040000 0 (.tdinv 2) ∧
    readsTo 0xC2040003 0 (.tdpool 2 3) ∧ readsTo 0xD2080000 0 (.actld 4) ∧ readsTo 0xD0064000 0 (.coll 3 8) ∧
    readsTo 0xCC0A0860 0 (.accst 5 2 6) ∧ readsTo 0xD6000200 0 (.odecl 1) ∧ readsTo 0xD8000002 0 (.mbxwait 2) ∧
    readsTo 0xDC289100 0 (.pref 5 4 1) := by decide

/-- Illegal words and their sub-codes (10 R222): a reserved function, condition or scope; a prefix before a uniform word, one with a field that is
not used, one that is malformed; a selector that names no register. -/
theorem test_decode_refuses : refusedAs 0x0214307F 0 0 ∧ refusedAs 0x1B0C205A 0 0 ∧ refusedAs 0x98001C00 0 0 ∧
    refusedAs 0x7E000000 0x80188280 1 ∧ refusedAs 0x7E000100 0x02143070 1 ∧ refusedAs 0x7E018000 0x12143070 1 ∧
    refusedAs 0xA8200034 0 3 := by decide

/-! ## Small states -/

/-- A warp of 16 lanes on one path at 0x1000, with 16 v registers and a handler at 0x8000. -/
def tWarp : Warp :=
  { grant := 16, present := 0xFFFF, path := 0xFFFF, pcs := List.replicate 64 0x1000, areg := 16, amax := 128, deep := 32, dmax := 64, trapBase := 0x8000,
    loc := .active 0 }

/-- Every lane of a v register at one word. -/
def tv (r : Nat) (x : Word) (t : Tbl Lanes) : Tbl Lanes := tset t r (List.replicate 64 x)

/-- Lane L of a v register at f L. -/
def tvf (r : Nat) (f : Nat → Nat) (t : Tbl Lanes) : Tbl Lanes := tset t r (laneList (fun l => BitVec.ofNat 32 (f l)))

/-- Page tables of slice 0 and its context 0: the first page of 8 GiB maps to itself, writable and executable. -/
def tPages : Memory :=
  let put := fun (m : Memory) (a v : Nat) => mwriteN m a (natBytes 8 v)
  put (put (put (put [] 0x100000 0x110001) 0x110000 0x1F) 0x120000 0x130001) 0x130000 0x0F

def tCtx : Ctx := { state := 2, s1root := 0x120000 }
def tTeam : Team := { threads := 16, entry := 0x1000, accB := 2, tagBase := 8, tagCount := 4, pool := 0x300000 }
def tSlice : Slice := { s2root := 0x100000, s2enable := true, ctxs := [(0, tCtx)] }

/-- Slice 0 holds granule 0; warp w is in slot 0 of core 0, and holds the turn. -/
def tState (w : Warp) : State :=
  { mem := tPages, cores := [(0, { warps := [(0, w)], teams := [(0, tTeam)], bank0 := { owner := some 0 } })], slices := [(0, tSlice)],
    granMap := 0 :: List.replicate 15 0x1F }

/-- The state that an instruction leaves; the one before a stop. -/
def tAfter (i : Instr) (s : State) : State :=
  match exec i s with
  | .next t => t
  | .fault _ => s
  | .refused _ => s

/-- The turn's warp after an instruction. -/
def tDone (i : Instr) (w : Warp) : Warp := (getWarp (tAfter i (tState w)) 0 0).getD {}

/-- Lane L of v5 after an instruction, with v6 and v7 at two words. -/
def tOf (i : Instr) (x y : Word) (l : Nat := 0) : Word := readLane (tDone i { tWarp with v := tv 7 y (tv 6 x []) }) 5 l

/-- s3 after an instruction, with s4 and s5 at two values. -/
def tU (i : Instr) (x y : DWord) : DWord := readS (tDone i { tWarp with s := [(4, x), (5, y)] }) 3

/-- The count of a class after an instruction, with v6 and v7 at two words in lane 0 alone. -/
def tCount (i : Instr) (x y : Word) (cls : Nat) : Nat :=
  (excGet (tAfter i (tState { tWarp with present := 1, path := 1, v := tv 7 y (tv 6 x []) })) 0 0 0 cls).count

/-! ## Single steps: the examples of the reference -/

theorem test_vabs_of_least : tOf (.vabs none 5 6) 0x80000000 0 = 0x80000000 := by decide +kernel
theorem test_vclz : tOf (.vclz none 5 6) 0x0001F000 0 = 15 ∧ tOf (.vpopc none 5 6) 0x0001F000 0 = 5 := by decide +kernel
theorem test_vmul : tOf (.vmul none 5 6 7) 0xFFFFFFFE 3 = 0xFFFFFFFA ∧ tOf (.vmulhI none 5 6 7) 0xFFFFFFFE 3 = 0xFFFFFFFF ∧
    tOf (.vmulhN none 5 6 7) 0xFFFFFFFE 3 = 2 := by decide +kernel
theorem test_vmin_vmax : tOf (.vminI none 5 6 7) 0xFFFFFFFF 1 = 0xFFFFFFFF ∧ tOf (.vminN none 5 6 7) 0xFFFFFFFF 1 = 1 ∧
    tOf (.vmaxI none 5 6 7) 0xFFFFFFFF 1 = 1 ∧ tOf (.vmaxN none 5 6 7) 0xFFFFFFFF 1 = 0xFFFFFFFF := by decide +kernel
theorem test_vbfe : tOf (.vbfeN none 5 6 7) 0xDEADBEEF 0xC08 = 0xDBE ∧ tOf (.vbfeI none 5 6 7) 0xDEADBEEF 0xC08 = 0xFFFFFDBE ∧
    tOf (.vbfeI none 5 6 7) 0xDEADBEEF 0xC1C = 0xFFFFFFFD ∧ tOf (.vbfeN none 5 6 7) 0xDEADBEEF 0x1C = 0 := by decide +kernel
theorem test_vbfi : readLane (tDone (.vbfi none 5 6 7) { tWarp with v := tv 7 0xC08 (tv 6 0xDEADBEEF (tv 5 0x11111111 [])) }) 5 0 = 0x111EEF11 := by
  decide +kernel
theorem test_shifts_beyond_width : tOf (.vshl none 5 6 7) 0xFFFFFFFF 32 = 0 ∧ tOf (.vsar none 5 6 7) 0x80000000 0xFFFFFFFF = 0xFFFFFFFF := by
  decide +kernel
theorem test_vfma_keeps_the_low_bit :
    tOf (.vfmul none 5 6 7) 0x3F800800 0x3F800800 = 0x3F801000 ∧
    readLane (tDone (.vffma none 5 6 7) { tWarp with v := tv 7 0x3F800800 (tv 6 0x3F800800 (tv 5 0xBF800000 [])) }) 5 0 = 0x3A000400 := by
  decide +kernel
theorem test_vfadd_overflow : tOf (.vfadd none 5 6 7) 0x7F7FFFFF 0x7F7FFFFF = 0x7F800000 ∧ tCount (.vfadd none 5 6 7) 0x7F7FFFFF 0x7F7FFFFF 1 = 1 ∧
    tOf (.vfadd (some { tPre with guard := 0, rnd := 2 }) 5 6 7) 0x7F7FFFFF 0x7F7FFFFF = 0x7F7FFFFF := by decide +kernel
theorem test_vfsub_exact_zero : tOf (.vfsub (some { tPre with guard := 0, rnd := 3 }) 5 6 6) 0x40000000 0 = 0x80000000 := by decide +kernel
theorem test_vfmin_zero : tOf (.vfmin none 5 6 7) 0 0x80000000 = 0x80000000 ∧ tOf (.vfmax none 5 6 7) 0x7FC00001 1 = 1 := by decide +kernel
theorem test_vrcp : tOf (.vrcp none 5 6) 0x40400000 0 = 0x3EAAB000 ∧ tOf (.vrsq none 5 6) 0x40000000 0 = 0x3F350000 := by decide +kernel
theorem test_vcvt_to_i32 : tOf (.vcvt none 5 6 0 5 0 0 0) 0xC0200000 0 = 0xFFFFFFFE ∧
    tOf (.vcvt (some { tPre with guard := 0, rnd := 3 }) 5 6 0 5 0 0 0) 0xC0200000 0 = 0xFFFFFFFD ∧
    tOf (.vcvt none 5 6 0 5 0 0 0) 0x4F32D05E 0 = 0x80000000 ∧ tCount (.vcvt none 5 6 0 5 0 0 0) 0x4F32D05E 0 0 = 1 := by decide +kernel
theorem test_vmov_half : readLane (tDone (.vmovHi none 5 4) { tWarp with s := [(4, 0x1122334455667788)] }) 5 0 = 0x11223344 := by decide +kernel
theorem test_zeroing_guard : tOf (.vmovi (some { tPre with guard := 2, zero := true }) 5 7) 0 0 = 0 ∧
    tOf (.vmovi (some { tPre with guard := 2, neg := true }) 5 0x3FFFF) 0 0 = 0xFFFFFFFF := by decide +kernel
theorem test_vcmp_nan : readP (tDone (.vcmp none 2 3 6 6 1) { tWarp with v := tv 6 0x7FC00000 [] }) 3 = 0xFFFF ∧
    readP (tDone (.vcmp none 2 3 6 7 0) { tWarp with v := tv 7 0 (tv 6 0x80000000 []) }) 3 = 0xFFFF := by decide +kernel
theorem test_elect : readP (tDone (.elect none 4) { tWarp with path := 0x00F0 }) 4 = 0x0010 := by decide +kernel

/-- The example of SHFL (14 R344): a warp of 16 lanes whose v6 holds 10 × L, with v7 at 1. -/
def tShfl (m : BitVec 2) (l : Nat) : Word := readLane (tDone (.shfl none 5 6 7 0 m) { tWarp with v := tv 7 1 (tvf 6 (10 * ·) []) }) 5 l

theorem test_shfl : tShfl 1 0 = 0 ∧ tShfl 1 15 = 140 ∧ tShfl 2 15 = 150 ∧ tShfl 2 0 = 10 ∧ tShfl 3 0 = 10 ∧ tShfl 3 15 = 140 := by decide +kernel
theorem test_shfl_width_trap : (tDone (.shfl none 5 6 7 1 1) tWarp).trapCause = 0x2000000005 ∧ (tDone (.shfl none 5 6 7 1 1) tWarp).trapLanes = 0xFFFF ∧
    pcOf (tDone (.shfl none 5 6 7 1 1) tWarp) 0 = 0x8000 := by decide +kernel

/-- The example of BCAST (13 R311): lanes 0 to 7 run, and v6 holds 100 + L. -/
def tBcast (i : BitVec 7) (l : Nat) : Word := readLane (tDone (.bcast none 5 6 i 0) { tWarp with path := 0xFF, v := tvf 6 (100 + ·) [] }) 5 l

theorem test_bcast : tBcast 5 3 = 105 ∧ tBcast 10 3 = 103 ∧ tBcast 5 8 = 0 := by decide +kernel
theorem test_vred_tree : readLane (tDone (.vred none 5 6 0 0) { tWarp with path := 0xF, v := tset [] 6 [0x4B800000, 0x3F800000, 0x3F800000, 0xCB800000] }) 5 0 = 0x3F800000 := by decide +kernel
theorem test_vscan : readLane (tDone (.vscan none 5 6 0 2) { tWarp with v := tvf 6 (· + 1) [] }) 5 3 = 6 := by decide +kernel
theorem test_vote_ballot : readLane (tDone (.vote none 5 3 0 0) { tWarp with p := [(3, 0x1248)] }) 5 2 = 0x1248 := by decide +kernel

theorem test_uniform_table : tU (.uadd 3 4 5) 0xFFFFFFFFFFFFFFF0 3 = 0xFFFFFFFFFFFFFFF3 ∧ tU (.umulhI 3 4 5) 0xFFFFFFFFFFFFFFF0 3 = 0xFFFFFFFFFFFFFFFF ∧
    tU (.umulhN 3 4 5) 0xFFFFFFFFFFFFFFF0 3 = 2 ∧ tU (.ushr 3 4 5) 0xFFFFFFFFFFFFFFF0 3 = 0x1FFFFFFFFFFFFFFE ∧
    tU (.uminN 3 4 5) 0xFFFFFFFFFFFFFFF0 3 = 3 ∧ tU (.usarImm 3 4 63) 0xFFFFFFFFFFFFFFF0 3 = 0xFFFFFFFFFFFFFFFF := by decide +kernel
theorem test_uniform_immediates : tU (.uaddi 3 4 0x1FFF) 0xFFFFFFFFFFFFFFF0 3 = 0xFFFFFFFFFFFFFFEF ∧ tU (.umovi 3 0x7FFFE) 0 0 = 0xFFFFFFFFFFFFFFFE := by
  decide +kernel
theorem test_s0_discards : readS (tDone (.umovi 0 5) tWarp) 0 = 0 := by decide +kernel
theorem test_call_and_ret : readS (tDone (.call 4) tWarp) 63 = 0x1004 ∧ pcOf (tDone (.call 4) tWarp) 5 = 0x1010 ∧
    pcOf (tDone .ret { tWarp with s := [(63, 0x2000)] }) 0 = 0x2000 := by decide +kernel
theorem test_brv_splits : (tDone (.brv 3 0 8) { tWarp with p := [(3, 0xFF00)] }).path = 0x00FF ∧
    pcOf (tDone (.brv 3 0 8) { tWarp with p := [(3, 0xFF00)] }) 9 = 0x1020 := by decide +kernel
theorem test_jmpi_misaligned : (tDone (.jmpi 4) { tWarp with s := [(4, 0x2002)] }).trapCause = 0x8000000000000022 ∧
    (tDone (.jmpi 4) { tWarp with s := [(4, 0x2002)] }).faulted = true := by decide +kernel
theorem test_barsync_whole_team : (tget {} (getTeam (tAfter (.barsync 0 0) (tState tWarp)) 0 0).bars 0).phase = true ∧
    pcOf (tDone (.barsync 0 0) tWarp) 0 = 0x1004 := by decide +kernel
theorem test_trap_and_tret : (tDone (.trap 5) tWarp).trapCause = 0x500000001 ∧ pcOf (tDone (.trap 5) tWarp) 0 = 0x8000 ∧
    pcOf (tDone (.tret 0) { tWarp with tm := true, handlers := 0xFFFF, trapPc := 0x3000 }) 0 = 0x3000 := by decide +kernel
theorem test_bkpt_without_handler : (tDone .bkpt { tWarp with trapBase := 0 }).trapCause = 0xC000000000000002 := by decide +kernel
theorem test_nmode_refuses_reserved : (tDone (.swrite 4 8) { tWarp with s := [(4, 5)] }).trapCause = 0x8000000000030021 ∧
    (tDone (.swrite 4 8) { tWarp with s := [(4, 0x4)] }).nmode = 4 := by decide +kernel
theorem test_exit_ends_lanes : (tDone (.exit none) { tWarp with path := 0x000F }).exited = 0x000F := by decide +kernel

/-- A store is read back by its own core, little-endian, and lies in the core's store buffer (03 R48, R49). -/
theorem test_store_then_load : seenNat (tAfter (.ust 5 4 2 1) (tState { tWarp with s := [(4, 0x200000), (5, 0xA1B2C3D4)] })) 0 0 0x200004 4 = 0xA1B2C3D4 ∧
    mread (tAfter (.ust 5 4 2 1) (tState { tWarp with s := [(4, 0x200000), (5, 0xA1B2C3D4)] })).mem 0x200004 = 0 := by decide +kernel
theorem test_load_sign_extends : readS (tDone (.uld 3 4 4 0) { tWarp with s := [(4, 0x130000)] }) 3 = 0x0F ∧
    readS (tDone (.uld 3 4 4 0) { tWarp with s := [(4, 0x110001)] }) 3 = 0 := by decide +kernel
theorem test_vld_lanes : readLane (tDone (.vld none 5 4 6 2 0) { tWarp with v := tvf 6 (fun l => 8 * (l % 2)) [], s := [(4, 0x110000)] }) 5 0 = 0x1F := by
  decide +kernel
theorem test_load_of_unmapped_page : (tDone (.uld 3 4 3 0) { tWarp with s := [(4, 0x200000000)] }).faulted = true ∧
    (tDone (.uld 3 4 3 0) { tWarp with s := [(4, 0x200000000)] }).trapAddr = 0x200000000 := by decide +kernel
def tAdds : State := tState { tWarp with path := 0xF, s := [(4, 0x200000)], v := tv 6 0 (tvf 5 (· + 1) []) }

theorem test_atomic_lanes_in_order : readLane ((getWarp (tAfter (.vatom none 5 4 6 0) tAdds) 0 0).getD {}) 5 3 = 6 ∧
    bytesNat (mreadN (tAfter (.vatom none 5 4 6 0) tAdds).mem 0x200000 4) = 10 := by decide +kernel
theorem test_deep_file : tget 0 (tDone (.dwr none 5 6 3) { tWarp with v := tv 6 2 (tv 5 9 []) }).d (5 * 64 + 7) = 9 ∧
    (tDone (.drdBlk none 5 6 3) { tWarp with v := tv 6 29 [] }).trapCause = 0x8000000000000021 := by decide +kernel
theorem test_accumulators : tget 0 (getTeam (tAfter (.accwr none 5 6) (tState { tWarp with v := tv 6 0x4083 (tvf 5 id []) })) 0 0).acc 0x4083 = 15 := by
  decide +kernel
theorem test_tdset_word : tget 0 (getCtx (tAfter (.tdset 2 5 4) (tState { tWarp with s := [(4, 7)] })) 0 0).td 2 = 7 * 2 ^ 320 := by decide +kernel
theorem test_tags : readS (tDone (.tfirst 3) tWarp) 3 = 64 ∧ pcOf (tDone (.waitc 0 0) { tWarp with counts := [1, 0, 0, 0] }) 0 = 0x1000 ∧
    pcOf (tDone (.waitc 0 1) { tWarp with counts := [1, 0, 0, 0] }) 0 = 0x1004 := by decide +kernel

/-! ## Single steps: events of the module -/

theorem test_semaphore_token : (tAfter (.laysemRead .b) State.reset).lastRead = 0x9000000000000001 := by decide +kernel
theorem test_prepare_needs_the_holder : (tAfter (.prepare .a 1) State.reset).layResult = 6 := by decide +kernel
theorem test_mailbox_enable_checks : (getMbox (tAfter (.mailboxEnable 0 0 0x80010002) (tState tWarp)) 0 0).errcode = 1 ∧
    (getMbox (tAfter (.mailboxEnable 0 0 0x80010003) (putMbox (tState tWarp) 0 0 { size := 4 })) 0 0).enable = true := by decide +kernel
theorem test_trip_stops_the_device : (tAfter (.sensorUpdate 0 (some (110 * 256))) (tState tWarp)).deviceErr = true ∧
    (tAfter (.sensorUpdate 0 (some (110 * 256 - 1))) (tState tWarp)).deviceErr = false := by decide +kernel
theorem test_slice_reset_clears_memory : mread (tAfter (.sliceReset 0) (tState tWarp)).mem 0x110000 = 0 ∧
    (getSlice (tAfter (.sliceReset 0) (tState tWarp)) 0).tdi = .error := by decide +kernel
theorem test_quiesce_refuses_absent : (getSlice (tAfter (.quiesce 0 5) (tState tWarp)) 0).slstat = 2 := by decide +kernel

/-! ## Hypotheses that can be met: one theorem for each claim -/

/-- What a computation answers has a property. -/
def okB {ε α : Type} (r : Except ε α) (P : α → Bool) : Bool :=
  match r with
  | .ok x => P x
  | .error _ => false

/-- A value that is present has a property. -/
def someB {α : Type} (r : Option α) (P : α → Bool) : Bool :=
  match r with
  | some x => P x
  | none => false

/-- A warp with a path holds the turn of its state. -/
theorem tTurn (w : Warp) (h : w.path ≠ 0) : OnTurn (tState w) w := ⟨rfl, h⟩

/-- The 16-lane warp with words in v5 to v7. -/
def tVec : Warp := { tWarp with v := tv 7 3 (tv 6 0xFFFFFFFE []), p := [(1, 0xFF0F), (3, 0xFFFF)] }

/-- A prefix with a guard that some lanes of `tVec` pass. -/
def tGuard : Option APre := some tPre

theorem witness_VectorIntegers : usesGuard tGuard ∧ usesGuardAndFourth (some { tPre with vc := 15 }) ∧ OnTurn (tState tVec) tVec ∧
    VectorReady tVec tGuard 15 [15, 7] ∧ VectorReady tVec (some { tPre with vc := 15 }) 0 [6, 7, 15] ∧ VectorReady tVec none 5 [6] := by
  refine ⟨?_, ?_, tTurn _ (by decide), ?_, ?_, ?_⟩
  · intro p h; cases h; decide
  · intro p h; cases h; decide
  all_goals unfold VectorReady Readable; decide

theorem witness_VectorLogicAndMoves : OnTurn (tState tVec) tVec ∧ VectorReady tVec tGuard 5 [6, 7] ∧ VectorReady tVec tGuard 5 [6, 7, 15] ∧
    VectorReady tVec tGuard 15 [6] ∧ VectorReady tVec tGuard 5 [] ∧ Readable tVec (activeA tVec tGuard) 0 [5, 6, 7] [5] [6, 7] [] ([1] ++ [15]) ∧
    Readable tVec (activeA tVec tGuard) 0 [5] [5] [] [192 + 63] [1] ∧ Readable tVec (activeA tVec tGuard) 0 [5] [5] [] [128 + 63] [1] ∧
    (3 * 2 ^ 9 ≤ (0x600 : BitVec 11).toNat ∧ (0x020 : BitVec 11).toNat / 2 ^ 5 % 2 ^ 4 ≠ 0) := by
  refine ⟨tTurn _ (by decide), ?_⟩
  unfold VectorReady Readable
  decide

theorem witness_Predicates : OnTurn (tState tVec) tVec ∧
    (let kept := guardRegA tGuard ++ keptPredicate tVec (activeA tVec tGuard) (zeroedA tVec tGuard) 3
     Readable tVec (activeA tVec tGuard) 0 [6, 7] [] [6, 7] [] (kept ++ []) ∧ Readable tVec (activeA tVec tGuard) 0 [] [] [] [] (kept ++ [31, 31]) ∧
     activeA tVec tGuard ≠ 0 ∧ Readable tVec (activeA tVec tGuard) 0 [] [] [] [] kept) ∧
    (let none_ : Option APre := some { tPre with guard := 2, zero := true }
     activeA tVec none_ = 0 ∧ Readable tVec (activeA tVec none_) 0 [] [] [] [] (guardRegA none_ ++ keptPredicate tVec (activeA tVec none_) (zeroedA tVec none_) 3)) ∧
    (7 : BitVec 4).toNat < 8 ∧ (5 : BitVec 4).toNat < 6 := by
  refine ⟨tTurn _ (by decide), ?_⟩
  unfold Readable
  decide

theorem witness_VectorFloatResults : OnTurn (tState tVec) tVec ∧ FloatReady tVec tGuard 5 [6, 7] ∧ VectorReady tVec tGuard 5 [6, 7] ∧
    FloatReady tVec tGuard 5 [6, 7, 15] := by
  refine ⟨tTurn _ (by decide), ?_⟩
  unfold FloatReady VectorReady Readable
  decide

theorem witness_SpecialFunctionResults : OnTurn (tState tVec) tVec ∧ FloatReady tVec tGuard 15 [15] := by
  refine ⟨tTurn _ (by decide), ?_⟩
  unfold FloatReady Readable
  decide

theorem witness_PackedResults : OnTurn (tState tVec) tVec ∧ FloatReady tVec tGuard 5 [6, 7] ∧ FloatReady tVec tGuard 5 [6, 7, 0] := by
  refine ⟨tTurn _ (by decide), ?_⟩
  unfold FloatReady Readable
  decide

theorem witness_ConversionResults : OnTurn (tState tVec) tVec ∧ wellFormed (.vcvt tGuard 5 6 3 8 0 1 3) = true ∧ Fmt.ofCode 3 = some .e4m3 ∧
    Fmt.ofCode 8 = some .n8 ∧ FloatReady tVec tGuard 5 [6, 5] ∧ wellFormed (.vcvt tGuard 5 6 4 0 1 0 3) = true ∧ Fmt.ofCode 4 = some .e5m2 ∧
    Fmt.ofCode 0 = some .f32 ∧ FloatReady tVec tGuard 5 [6] := by
  refine ⟨tTurn _ (by decide), ?_⟩
  unfold FloatReady Readable
  decide

/-- A warp of 64 lanes, whose ballots fill a pair. -/
def tWide : Warp := { tVec with grant := 64, present := BitVec.allOnes 64, path := BitVec.allOnes 64 }

theorem witness_LaneExchangeResults : OnTurn (tState tVec) tVec ∧ OnTurn (tState tWide) tWide ∧ segWidth tVec (getTeam (tState tVec) 0 0) 0 = 16 ∧
    segWidth tWide (getTeam (tState tWide) 0 0) 2 = 64 ∧ segWidth tWide (getTeam (tState tWide) 0 0) 3 = 64 ∧
    CrossReady tVec tGuard 16 [5, 6, 7] [5] [6, 7] [] ∧ CrossReady tWide tGuard 64 [5, 6] [5] [6] [] ∧ (63 : BitVec 7).toNat < 64 ∧
    CrossReady tVec tGuard 16 [5] [5] [] [3] ∧ CrossReady tWide tGuard 64 [14, 15] [14, 15] [] [3] ∧ (14 : BitVec 7).toNat % 2 = 0 := by
  refine ⟨tTurn _ (by decide), tTurn _ (by decide), ?_⟩
  unfold CrossReady Readable
  decide +kernel

theorem witness_ReductionResults : OnTurn (tState tVec) tVec ∧ CrossReady tVec tGuard 16 [5, 6] [5] [6] [] ∧
    segWidth tVec (getTeam (tState tVec) 0 0) 3 = 16 ∧ CrossReady tWide tGuard 64 [5, 6] [5] [6] [] ∧ OnTurn (tState tWide) tWide ∧
    poisonedTable tVec [nmodeWord] [] = false := by
  refine ⟨tTurn _ (by decide), ?_, by decide +kernel, ?_, tTurn _ (by decide), by decide⟩
  all_goals unfold CrossReady Readable; decide

theorem witness_UniformIntegers : OnTurn (tState tWarp) tWarp ∧ poisonedTable tWarp [63, 63] [] = false ∧ poisonedTable tWarp [0] [] = false ∧
    (0 : BitVec 6) = 0 ∧ (1 : BitVec 6) ≠ 0 ∧ 16 ≤ (16 : BitVec 7).toNat ∧ 3 * 2 ^ 11 ≤ (0x1800 : BitVec 13).toNat ∧
    (0x40 : BitVec 13).toNat / 2 ^ 6 % 2 ^ 5 ≠ 0 := by
  refine ⟨tTurn _ (by decide), ?_⟩
  decide

theorem witness_UniformTransfers : OnTurn (tState tVec) tVec ∧ lowest tVec.path = some 0 ∧ (15 : BitVec 7).toNat < tVec.areg ∧
    (tget 0 tVec.vPoison 15).getLsbD 0 = false ∧ ((14 : BitVec 7).toNat % 2 = 0 ∧ (14 : BitVec 7).toNat + 1 < tVec.areg) ∧
    (tget 0 tVec.vPoison 14).getLsbD 0 = false ∧ poisonedTable tVec [128 + 63] [] = false ∧ poisonedTable { tVec with wtPoison := tableWords (192 + 3) } [192 + 3] [] = true ∧
    pathPc tVec = (getTeam (tState tVec) 0 tVec.team).entry := by
  refine ⟨tTurn _ (by decide), ?_⟩
  decide +kernel

/-- Every lane of a path within the lanes that can run can run. -/
theorem tPathOk (w : Warp) (h : w.path &&& ~~~selectable w = 0) : PathOk w := by
  intro l hl
  have lt : l < 64 := Nat.lt_of_not_le (fun n => by
    rw [BitVec.getLsbD_of_ge _ _ n] at hl
    exact Bool.noConfusion hl)
  have g : (w.path &&& ~~~selectable w).getLsbD l = false := by rw [h]; exact BitVec.getLsbD_zero
  rw [BitVec.getLsbD_and, hl, BitVec.getLsbD_not] at g
  simpa [lt] using g

theorem witness_Branches : OnTurn (tState tWarp) tWarp ∧ poisonedTable tWarp [4, 5] [] = false ∧ (5 : BitVec 3).toNat < 6 ∧
    (let u : Warp := { tWarp with s := [(4, 0xFFFFFFFFFFFFFC), (5, 0x2002), (6, 0x100000000000000), (63, 0x2000)], p := [(3, 0xFF00)] }
     OnTurn (tState u) u ∧ ((readS u 4).toNat % 4 = 0 ∧ canonical (readS u 4) = true) ∧ (readS u 5).toNat % 4 ≠ 0 ∧
     ((readS u 6).toNat % 4 = 0 ∧ canonical (readS u 6) = false) ∧ ((readS u 63).toNat % 4 = 0 ∧ canonical (readS u 63) = true) ∧
     poisonedTable u [] [3] = false ∧ PathOk u ∧ JoinsPending u) := by
  refine ⟨tTurn _ (by decide), by decide, by decide, tTurn _ (by decide), by decide, by decide, by decide, by decide, by decide, tPathOk _ (by decide), ?_⟩
  unfold JoinsPending
  decide

/-- Lanes 0 to 3 run at 0x1000 and are enrolled there in j2; lanes 4 to 15 are elsewhere. -/
def tJoin (blocks : Tbl Block) : Warp :=
  { tWarp with path := 0xF, j := (List.range 4).map (fun l => (128 + l, 0x1000)), blocks := blocks,
               pcs := laneList (fun l => if l < 4 then 0x1000 else 0x2000) }

/-- Lanes 0 and 1 at 0x1000; lanes 2 and 3 wait at 0x2000 on join 2, at which lanes 0 to 3, or 2 and 3 with lane 5, are enrolled. -/
def tRejoin (others : List Nat) : Warp :=
  { tWarp with path := 0x3, j := others.map (fun l => (128 + l, 0x2000)), blocks := [(2, .jwait 2 0x2000), (3, .jwait 2 0x2000)],
               pcs := laneList (fun l => if l < 2 then 0x1000 else 0x2000) }

theorem witness_Rejoins :
    -- an enrolment with nobody waiting, one that leaves a rejoin still waited for, and one that completes it
    (OnTurn (tState tWarp) tWarp ∧ PathOk tWarp ∧ waitedJoins tWarp = []) ∧
    (let u := tRejoin [0, 1, 2, 3, 5]
     OnTurn (tState u) u ∧ PathOk u ∧ waitedJoins u ≠ [] ∧ JoinsPending u ∧ (tfind u.j (128 + 5) == some 0x2000 && (liveLanes u).getLsbD 5) = true) ∧
    (let u := tRejoin [0, 1, 2, 3]
     OnTurn (tState u) u ∧ PathOk u ∧ u.tm = false ∧ (2, 0x2000) ∈ waitedJoins u ∧ (∀ e, e ∈ waitedJoins u → e = (2, 0x2000)) ∧
     (∀ l, l < 64 → (if u.path.getLsbD l then some 0x3000 else tfind u.j (128 + l)) = some 0x2000 → tfind u.blocks l = some (.jwait 2 0x2000)) ∧
     (∀ l, l < 64 → (tfind u.blocks l == some (.jwait 2 0x2000)) = true → tfind u.j (128 + l) = some 0x2000 ∧ (liveLanes u).getLsbD l = true)) ∧
    poisonedJ (tJoin []) 2 = 0 ∧ poisonedJ { tJoin [] with wtPoison := [joinWord 2 1] } 2 ≠ 0 ∧
    (JoinsPending tWarp ∧ ∀ l, tWarp.path.getLsbD l = true → (tfind tWarp.j (128 + l) == some (pathPc tWarp)) = false) ∧
    (let u : Warp := { tJoin [] with path := 0x7, pcs := laneList (fun l => if l < 3 then 0x1000 else 0x2000) }
     OnTurn (tState u) u ∧ PathOk u ∧ JoinsPending u ∧ (∀ l, l < 64 → u.path.getLsbD l = true → (tfind u.j (128 + l) == some (pathPc u)) = true) ∧
     3 < 64 ∧ (tfind u.j (128 + 3) == some (pathPc u)) = true ∧ (liveLanes u).getLsbD 3 = true ∧ u.path.getLsbD 3 = false ∧
     (tfind u.blocks 3 == some (.jwait 2 (pathPc u))) = false) ∧
    (let u := tJoin []
     OnTurn (tState u) u ∧ PathOk u ∧ (∀ e, e ∈ waitedJoins u → e = (2, pathPc u)) ∧ u.tm = false ∧
     (∀ l, l < 64 → u.path.getLsbD l = true → (tfind u.j (128 + l) == some (pathPc u)) = true) ∧
     (∀ l, l < 64 → (tfind u.j (128 + l) == some (pathPc u)) = true → (liveLanes u).getLsbD l = true →
       u.path.getLsbD l = true ∨ (tfind u.blocks l == some (.jwait 2 (pathPc u))) = true) ∧
     ∀ l, l < 64 → (tfind u.blocks l == some (.jwait 2 (pathPc u))) = true →
       (tfind u.j (128 + l) == some (pathPc u)) = true ∧ (liveLanes u).getLsbD l = true) := by
  refine ⟨⟨tTurn _ (by decide), tPathOk _ (by decide), by decide⟩, ⟨tTurn _ (by decide), tPathOk _ (by decide), by decide +kernel, ?_, by decide +kernel⟩,
    ⟨tTurn _ (by decide), tPathOk _ (by decide), by decide +kernel⟩, by decide, by decide, ⟨?_, fun l _ => rfl⟩, ⟨tTurn _ (by decide), tPathOk _ (by decide), ?_⟩,
    tTurn _ (by decide), tPathOk _ (by decide), ?_⟩
  · unfold JoinsPending; decide +kernel
  · unfold JoinsPending; decide
  · unfold JoinsPending; decide +kernel
  · decide +kernel

theorem witness_Exits : OnTurn (tState tVec) tVec ∧ PathOk tVec ∧ poisonedTable tVec [] (guardRegA tGuard) = false ∧
    (let u : Warp := { tVec with path := 0x8 }
     let x : Warp := { tWarp with path := 0, blocks := [(0, .bar 3)] }
     let s : State := putWarp (putTeam (tState u) 0 0 { tTeam with bars := [(3, { count := 31, whole := true, arrivals := [] })] }) 0 1 x
     OnTurn s u ∧ liveThreads s 0 0 = 32 ∧ getWarp s 0 1 = some x ∧ (x.blocks.map (fun e => e.1)).Nodup ∧ tfind x.blocks 0 = some (.bar 3)) ∧
    (let u : Warp := { tVec with path := 0x8 }
     let s : State := putTeam (tState u) 0 0 { tTeam with bars := [(3, { count := 2, whole := true, arrivals := [(3, 1)] })] }
     OnTurn s u ∧ PathOk u ∧ activeA u none = oneLane 3 ∧ (tfind (getTeam s 0 0).bars 3).isSome = true ∧
     ((getTeam s 0 0).bars.map (fun e => e.1)).Nodup ∧ tget 0 (tget {} (getTeam s 0 0).bars 3).arrivals 3 = 1) := by
  refine ⟨tTurn _ (by decide), tPathOk _ (by decide), by decide, ⟨⟨by decide +kernel, by decide⟩, by decide +kernel⟩,
    ⟨by decide +kernel, by decide⟩, tPathOk _ (by decide), ?_⟩
  decide +kernel

/-- A state whose team has a barrier b3 in some condition. -/
def tBarred (w : Warp) (b : Bar) : State := putTeam (tState w) 0 0 { tTeam with bars := [(3, b)] }

theorem witness_TeamBarriers :
    (let u : Warp := { tRejoin [2, 3, 5] with path := 0x33, pcs := laneList (fun l => if l = 2 ∨ l = 3 then 0x2000 else 0x1000), s := [(4, 17), (5, 16), (7, 4)] }
     PathOk u ∧ JoinsPending u ∧ waitedJoins u ≠ [] ∧ OnTurn (tBarred u {}) u ∧ poisonedTable u [4] [] = false ∧
     -- refused: a count above the team's, a zero count, another mode, another count
     ((getTeam (tBarred u {}) 0 0).threads < (readS u 4).toNat) ∧ readS u 6 = 0 ∧
     ((getTeam (tBarred u { count := 1, whole := true }) 0 0).bars = [(3, { count := 1, whole := true })]) ∧
     -- below the count, and reaching it
     (let live := liveThreads (tBarred u {}) 0 0
      (0 + countLanes u.path < live) ∧ (12 + countLanes u.path = live) ∧ (0 + countLanes u.path < (readS u 5).toNat) ∧
      (0 + countLanes u.path = (readS u 7).toNat) ∧ (u.blocks.map (fun e => e.1)).Nodup)) := by
  refine ⟨tPathOk _ (by decide), ?_, by decide +kernel, ⟨by decide +kernel, by decide⟩, ?_⟩
  · unfold JoinsPending; decide +kernel
  · decide +kernel

theorem witness_SpecialReads : OnTurn (tState tVec) tVec ∧ lowest tVec.path = some 0 ∧
    ((2 ^ 21 - 1 : Nat) < 2 ^ 21 ∧ (getTeam (tState tVec) 0 0).coord.1 < 2 ^ 21 ∧ (getTeam (tState tVec) 0 0).shape.1 < 2 ^ 16 ∧
     (getTeam (tState tVec) 0 0).gridDim.1 < 2 ^ 21) ∧ poisonedTable tVec [wswWord] [] = false ∧ poisonedTable tVec [nmodeWord] [] = false ∧
    poisonedTable tVec [ocntWord] [] = false ∧ poisonedTable { tVec with wtPoison := [ocntWord] } [ocntWord] [] = true ∧
    poisonedTable tVec [allotWord] [] = false ∧ poisonedTable { tVec with wtPoison := [allotWord] } [allotWord] [] = true := by
  refine ⟨tTurn _ (by decide), ?_⟩
  decide +kernel

theorem witness_SpecialWrites :
    (let u : Warp := { tWarp with s := [(4, 0x44444444), (5, 0xFFFFFFFFFFFFFC), (6, 2), (7, 0x3F7F), (8, 0x80), (9, 0xFFFFFFFF), (10, 0xFFFFFFFFFFFF), (11, 7)] }
     OnTurn (tState u) u ∧ PathOk u ∧ (∀ r, r < 12 → poisonedTable u [r] [] = false) ∧
     ((readS u 4).toNat < 2 ^ 32 ∧ ∀ i, i < 8 → (readS u 4).toNat / 2 ^ (4 * i) % 8 ≤ 4) ∧
     ((readS u 5).toNat % 4 = 0 ∧ canonical (readS u 5) = true) ∧ ¬((readS u 6).toNat % 4 = 0 ∧ canonical (readS u 6) = true) ∧
     readS u 7 &&& 0xFFFFFFFFFFFFC080 = 0 ∧ readS u 8 &&& 0xFFFFFFFFFFFFC080 ≠ 0 ∧ (readS u 9).toNat < 2 ^ 32 ∧ (readS u 10).toNat < 2 ^ 48 ∧
     (readS u 11).toNat < 8 ∧ (getCore (tState u) 0).cycle = none ∧
     (let s := putCore (tState u) 0 { getCore (tState u) 0 with cycle := some [0] }
      OnTurn s u ∧ (getCore s 0).cycle ≠ none) ∧ 8 ≤ (readS u 9).toNat) := by
  refine ⟨tTurn _ (by decide), tPathOk _ (by decide), ?_⟩
  refine ⟨by decide, by decide, by decide, by decide, by decide, by decide, by decide, by decide, by decide, by decide, ⟨⟨by decide +kernel, by decide⟩, by decide⟩, by decide⟩

theorem witness_AllotmentChanges :
    (let u : Warp := { tWarp with areg := 64, amax := 72, deep := 64, dmax := 96, dPend := [63] }
     let core := getCore (tState u) 0
     OnTurn (tState u) u ∧ 32 + 8 * (4 : BitVec 5).toNat ≤ u.areg ∧ (32 * (1 : BitVec 5).toNat ≤ u.deep ∧ ∀ k, k ∈ u.dPend → k < 32 * 64) ∧
     u.areg < 32 + 8 * (5 : BitVec 5).toNat ∧ u.deep < 32 * (3 : BitVec 5).toNat ∧
     (u.areg ≤ 72 ∧ 72 ≤ u.amax ∧ slowHeld core + (72 - u.areg) * u.grant * 4 ≤ 3145728 ∧ inFast u = true ∧
       fastHeld core u.bank + (72 - u.areg) * u.grant / 16 ≤ 5120) ∧
     (u.deep ≤ 96 ∧ 96 ≤ u.dmax ∧ slowHeld core + (96 - u.deep) * u.grant * 4 ≤ 3145728) ∧
     (56 < u.areg ∧ u.amax < 80) ∧ (32 < u.deep ∧ u.dmax < 128)) := by
  refine ⟨tTurn _ (by decide), ?_⟩
  decide +kernel

theorem witness_TrapsTaken : OnTurn (tState tWarp) tWarp ∧ (tWarp.tm = false ∧ tWarp.trapBase ≠ 0) ∧
    (OnTurn (tState { tWarp with tm := true }) { tWarp with tm := true }) ∧
    (OnTurn (tState { tWarp with trapBase := 0 }) { tWarp with trapBase := 0 }) ∧
    (tWarp.grant < segWidth tWarp (getTeam (tState tWarp) 0 0) 1 ∧ segWidth tWarp (getTeam (tState tWarp) 0 0) 2 ≤ 64 ∧ (15 : BitVec 7).toNat < tWarp.areg) ∧
    ((14 : BitVec 7).toNat % 2 = 0 ∧ (14 : BitVec 7).toNat + 1 < tWarp.areg) := by
  refine ⟨tTurn _ (by decide), by decide, tTurn _ (by decide), tTurn _ (by decide), ?_⟩
  decide +kernel

theorem witness_HandlersLeft : OnTurn (tState tWarp) tWarp ∧ tWarp.tm = false ∧
    (let u : Warp := { tWarp with tm := true, handlers := 0xF, path := 0x3, trapPc := 0x110000 }
     OnTurn (tState u) u ∧ u.tm = true ∧
     (match fetchWord (tState u) 0 u.slice u.ctx u.trapPc with
      | .word x _ => x == 0x1F
      | .waits => false
      | .fails _ => false) = true) := by
  refine ⟨tTurn _ (by decide), by decide, tTurn _ (by decide), ?_⟩
  decide +kernel

theorem witness_IllegalInstructionFaults : OnTurn (tState tWarp) tWarp ∧ 4 < 2 ^ 16 := ⟨tTurn _ (by decide), by decide⟩

/-- A warp whose s4 points at data, with offsets in v6. -/
def tMemW : Warp := { tWarp with path := 0xF, v := tvf 6 (16 * ·) (tvf 5 id []), s := [(4, 0x200000), (5, 0x1122334455667788), (7, 0x200080)] }

/-- Descriptors: td0 F32 of 256 by 256, td1 the same elsewhere, td2 N32 of 256, td3 F32 of one dimension, td4 I4 weights, td5 E4M3 activations, td6 invalid. -/
def tDesc (base fmt ndim e0 e1 gs extra : Nat) : Desc :=
  BitVec.ofNat 512 (base + extra + e0 * 2 ^ 192 + e1 * 2 ^ 224 + fmt * 2 ^ 352 + ndim * 2 ^ 357 + gs * 2 ^ 364 + 2 ^ 383 + (if ndim = 2 then e0 * 2 ^ 384 else 0))

def tTable : Tbl Desc :=
  [(0, tDesc 0x400000 0 2 256 256 0 (0x800000 * 2 ^ 128)), (1, tDesc 0x500000 0 2 256 256 0 0), (2, tDesc 0x600000 6 1 256 0 0 0),
   (3, tDesc 0x600000 0 1 256 0 0 0), (4, tDesc 0x700000 11 2 256 256 32 0), (5, tDesc 0x700000 3 2 256 256 0 0), (6, 0)]

/-- A group of one member, slice 0 of this package. -/
def tIssue (w : Warp) : State :=
  putSlice (tState w) 0 { tSlice with ctxs := [(0, { tCtx with td := tTable })], groups := [(0, 0x101)], members := [(0, BitVec.ofNat 128 (2 ^ 127))] }

theorem tIssueTurn (w : Warp) (h : w.path ≠ 0) : OnTurn (tIssue w) w := ⟨rfl, h⟩

/-- Page 0 of context 0 leads through stage 2 to a UALink window of slice 0 (IA of 512 MiB), which reaches slice 0 itself. -/
def tWindow : State :=
  let s := tState tWarp
  let mem := mwriteN (mwriteN s.mem 0x130008 (natBytes 8 (2 ^ 33 + 0x0F))) 0x110008 (natBytes 8 (2 ^ 50 + 0x1F))
  { s with mem := mem, slices := [(0, { tSlice with routing := [(0, BitVec.ofNat 128 (1 + 2 ^ 50 + 33 * 2 ^ 52 + 7 * 2 ^ 60 + 2 ^ 120))], kgen := 7 })], linkUp := [true, true] }

theorem witness_TranslationFrame : TlbOk (tState tWarp) ∧
    okB (translate (tState tWarp) 0 0 0 0x200004 .write) (fun x => x.1 == 0x200004) = true ∧ Acc.writes .write = true ∧
    okB (translate tWindow 0 0 0 0x200010004 .write) (fun x => x.1 == 0x10004) = true ∧ keyTaken tWindow 0 7 = true ∧
    okB (leaf1 (tState tWarp) 0 0 0 0x200004) (fun l => !inWindow ((l.1.out + 0x200004 % l.1.size) % 2 ^ 52) &&
      okB (leaf2 l.2 0 0 ((l.1.out + 0x200004 % l.1.size) % 2 ^ 52)) (fun r => !isLink (r.1.out + 0x200004 % r.1.size))) = true := by
  refine ⟨?_, by decide +kernel⟩
  unfold TlbOk
  decide

/-- Four bytes that lane 1 has loaded before its load retires, from 0x200010 (03 R48). -/
def tEarly : Warp := { tMemW with bound := [{ lane := 1, key := 0x200010, bytes := [1, 2, 3, 4], marks := [] }] }

theorem witness_VectorLoads : OnTurn (tState tMemW) tMemW ∧ Rising (tState tMemW).l2 ∧
    (boundAt tEarly 1 0x200010 4).isSome = true ∧ boundAt tEarly 0 0x200000 4 = none ∧
    Readable tMemW tMemW.path 0 (groupRegs 8 4 ++ [6]) (groupRegs 8 4) [6] [4] [] ∧ (4 : BitVec 3).toNat ≤ 6 ∧ (8 : BitVec 7).toNat % 4 = 0 ∧
    vmRegs 4 = 4 ∧ vmSize 4 = 16 ∧
    (let ck := checkLanes 0 0 0 16 .read ((lanesOf tMemW.path).map (fun l => (l, 0x200000 + BitVec.ofNat 64 (16 * l)))) (tState tMemW)
     ck.fails.isEmpty = true ∧ ck.waits = false ∧ ck.keys.length = 4 ∧
     someB (acquireLines ck.s 0 0 5 (keyLines ck.keys)) (fun s1 => (getCore s1 0).clean.isEmpty) = true ∧
     someB (acquireLines ck.s 0 0 0 (keyLines ck.keys)) (fun s1 =>
       ck.keys.all (fun e => !(loadBytes s1 0 0 e.2 16).poisoned && !loadWaits s1 0 0 e.2 16 && e.2 % 16 == 0)) = true) := by
  refine ⟨tTurn _ (by decide), by unfold Rising; decide, ?_⟩
  unfold Readable
  decide +kernel

theorem witness_UniformLoads : OnTurn (tState tMemW) tMemW ∧ boundAt tMemW 64 0x200000 4 = none ∧ (6 : BitVec 3).toNat ≤ 6 ∧ poisonedTable tMemW [4] [] = false ∧ uSize 6 = 4 ∧
    (let ck := checkLanes 0 0 0 4 .read [(0, 0x200000)] (tState tMemW)
     ck.fails.isEmpty = true ∧ ck.waits = false ∧ ck.keys = [(0, 0x200000)] ∧ (loadBytes ck.s 0 0 0x200000 4).poisoned = false ∧
     loadWaits ck.s 0 0 0x200000 4 = false ∧ 0x200000 % 4 = 0) := by
  refine ⟨tTurn _ (by decide), ?_⟩
  decide +kernel

theorem witness_Stores : OnTurn (tState tMemW) tMemW ∧
    Readable tMemW tMemW.path 0 (groupRegs 8 4 ++ [6]) [] (groupRegs 8 4 ++ [6]) [4] [] ∧ (4 : BitVec 3).toNat ≤ 4 ∧ (8 : BitVec 7).toNat % 4 = 0 ∧
    (let ck := checkLanes 0 0 0 16 .write ((lanesOf tMemW.path).map (fun l => (l, 0x200000 + BitVec.ofNat 64 (16 * l)))) (tState tMemW)
     ck.fails.isEmpty = true ∧ ck.waits = false ∧ ck.keys.length = 4 ∧ (∀ e, e ∈ ck.keys → e.2 % 16 = 0) ∧
     bufferCount (getCore ck.s 0) + countLanes tMemW.path ≤ 64) ∧
    (3 : BitVec 3).toNat ≤ 3 ∧ poisonedTable tMemW [5, 4] [] = false ∧ (lowest tMemW.path).getD 0 = 0 ∧ uSize 3 = 8 ∧
    (let ck := checkLanes 0 0 0 8 .write [(0, 0x200000)] (tState tMemW)
     ck.fails.isEmpty = true ∧ ck.waits = false ∧ ck.keys = [(0, 0x200000)] ∧ bufferCount (getCore ck.s 0) < 64) := by
  refine ⟨tTurn _ (by decide), ?_⟩
  unfold Readable
  decide +kernel

theorem witness_AtomicOperation : 11 ≤ 11 ∧ 0x200000 % atomSize 11 = 0 ∧ 2 ^ 64 - 1 < 2 ^ (8 * atomSize 11) ∧ 0x200004 % atomSize 10 = 0 ∧
    0x3F800000 < 2 ^ (8 * atomSize 10) ∧ MemoryOk (tState tWarp) := by
  unfold MemoryOk
  decide +kernel

theorem witness_Atomics : OnTurn (tState tMemW) tMemW ∧ tMemW.det = false ∧
    Readable tMemW tMemW.path 0 (groupRegs 8 2 ++ [6]) (groupRegs 8 2) (groupRegs 8 2 ++ [6]) [4] [] ∧ (8 : BitVec 7).toNat % 2 = 0 ∧
    (let ck := checkLanes 0 0 0 8 .atomic ((lanesOf tMemW.path).map (fun l => (l, 0x200000 + BitVec.ofNat 64 (16 * l)))) (tState tMemW)
     ck.fails.isEmpty = true ∧ ck.waits = false ∧ ck.keys.length = 4 ∧
     someB (drainFor ck.s 0 0 none 0 (ck.keys.map (fun e => e.2))) (fun s1 =>
       ck.keys.all (fun e => !isPoisoned s1 e.2 && decide (reach s1 0 e.2 = .ok))) = true) ∧
    poisonedTable tMemW [4, 6, nmodeWord] [] = false ∧
    (let ck := checkLanes 0 0 0 4 .atomic [(0, 0x200000)] (tState tMemW)
     ck.fails.isEmpty = true ∧ ck.waits = false ∧ ck.keys = [(0, 0x200000)] ∧
     someB (drainFor ck.s 0 0 (some 6) 0 [0x200000]) (fun s1 => !isPoisoned s1 0x200000 && decide (reach s1 0 0x200000 = .ok)) = true) ∧
    ({ tMemW with det := true }.det = true ∧ scopeOf 2 < 3) := by
  refine ⟨tTurn _ (by decide), ?_⟩
  unfold Readable
  decide +kernel

/-- A retired store, to 0x200010. -/
def tStore : PStore :=
  { line := 0x200000, bytes := [(0x200010, 0x5A)], marks := [], release := false, inL1 := false,
    origin := { ctx := 0, team := 0, slot := 0, gen := 0, pc := 0x1000, slice := 0 }, multi := false }

/-- A state whose core holds one retired store. -/
def tStored : State := putCore (tState tWarp) 0 { getCore (tState tWarp) 0 with pend := [tStore] }

/-- A state without cached lines, whose core's one store lies in its slice's stack, can land it. -/
theorem tLands : StoresCanLand tStored 0 0 := by
  refine ⟨by decide, ?_, ?_, by decide +kernel, ?_⟩
  · unfold StoresInLine; decide +kernel
  · exact ⟨by unfold Rising; decide, fun k x h => by cases h⟩
  · intro k x h; cases h

theorem witness_FencesAndCaches : OnTurn tStored tWarp ∧ StoresCanLand tStored 0 0 ∧ (getCore tStored 0).pend.length = 1 ∧ ((2 : BitVec 2) ≠ 1 ∧ 3 ≤ (3 : BitVec 3).toNat) ∧
    (let u : Warp := { tWarp with s := [(4, 0x100), (5, 0x200000), (6, 0x100000001)] }
     OnTurn (tState u) u ∧ poisonedTable u [4, 5] [] = false ∧ (readS u 7).toNat = 0 ∧ 2 ^ 32 < (readS u 6).toNat ∧
     (0 < (readS u 4).toNat ∧ (readS u 4).toNat ≤ 2 ^ 32) ∧
     okB (rangeLines 0 0 0 (readS u 5) 0x100 (blockStarts (readS u 5) 0x100) tStored) (fun r => lineIn r.1 0x200000) = true) := by
  refine ⟨⟨by decide +kernel, by decide⟩, tLands, by decide, by decide, tTurn _ (by decide), ?_⟩
  decide +kernel

theorem witness_DeepFile :
    (let u : Warp := { tWarp with path := 0x3, v := tv 6 2 [], dPend := [5 * 64], dPoison := [5 * 64 + 1] }
     let at_ := fun (path : LaneMask) (k : Nat) => { u with path := path, v := tv 6 (BitVec.ofNat 32 k) [] }
     OnTurn (tState u) u ∧ VectorReady u none 5 [6] ∧ Readable u u.path 0 [5, 6] [] [5, 6] [] [] ∧
     -- an entry that is there, one pending, one poisoned, and one beyond
     ((at_ 0x3 28).deep = 32 ∧ u.dPend.contains ((2 + 3) * 64) = true ∧ u.dPoison.contains ((2 + 3) * 64 + 1) = true ∧ 29 + 3 = u.deep) ∧
     OnTurn (tState (at_ 0x2 2)) (at_ 0x2 2) ∧ OnTurn (tState { u with tm := false }) u ∧ u.trapBase ≠ 0) := by
  refine ⟨tTurn _ (by decide), ?_, ?_, by decide, tTurn _ (by decide), tTurn _ (by decide), by decide⟩
  all_goals first | unfold VectorReady Readable | unfold Readable
  all_goals decide

/-- A failed operation of a class as its report names it. -/
def tErr (cls seq err : Nat) (addr : DWord) : AsyncErr :=
  { cls := cls, seq := seq, age := seq, err := err, addr := addr, ia := none, lanes := none, unit := .copy 0, progress := 0, pos := 0x1000 }

/-- A state whose bank has tags 8 and 9 set, tag 9 with an error, for a warp that has reported errors. -/
def tTagged (w : Warp) : State :=
  let s := tState w
  putCore s 0 { getCore s 0 with bank0 := { owner := some 0, tagRdy := 0x300, tagErrs := [(9, tErr 1 0 7 0x1234)] } }

theorem witness_WaitsAndTags :
    (let u : Warp := { tWarp with counts := [1, 0, 0, 0], issues := [2, 0, 0, 0], s := [(4, 0x100), (5, 0x300), (6, 0x1000), (7, 0x400), (8, 0x500)],
                                  asyncErrs := [tErr 0 0 1 0x5000] }
     OnTurn (tTagged u) u ∧ (∀ r, r < 9 → poisonedTable u [r] [] = false) ∧ (0 : Nat) < u.counts.getD 0 0 ∧
     (u.counts.getD 1 0 ≤ 0 ∧ (coveredError u 1 0).isNone = true) ∧ (u.counts.getD 0 0 ≤ 1 ∧ someB (coveredError u 0 1) (fun e => e.err == 1) = true) ∧
     (let range : DWord := BitVec.ofNat 64 ((2 ^ 4 - 1) * 2 ^ 8)
      readS u 6 &&& ~~~range ≠ 0 ∧ readS u 0 = 0 ∧ (readS u 7 ≠ 0 ∧ readS u 7 &&& ~~~range = 0 ∧ 0x300 &&& readS u 7 = 0) ∧
      (0x300 &&& readS u 8 ≠ readS u 8 ∧ 0x300 &&& readS u 8 ≠ 0) ∧ 0x300 &&& readS u 4 = readS u 4 ∧
      readS u 5 &&& ~~~range = 0 ∧ someB (tfind ((getCore (tTagged u) 0).bank 0).tagErrs 9) (fun e => e.err == 7) = true) ∧ poisonedTable u [ocntWord] [] = false) := by
  refine ⟨⟨by decide +kernel, by decide⟩, ?_⟩
  decide +kernel

theorem witness_AsynchronousIssue :
    (let u : Warp := { tWarp with s := [(4, 0), (5, 0), (6, 0x1000010 + 2 ^ 44 + 8 * 2 ^ 45), (8, 1), (9, 1 + 8 * 2 ^ 11), (10, 0), (11, 16),
        (12, BitVec.ofNat 64 (1 + 2 ^ 16))] }
     let d := fun (n : Nat) => tget 0 (getCtx (tIssue u) 0 0).td n
     OnTurn (tIssue u) u ∧ (∀ r, r < 13 → poisonedTable u [r] [] = false) ∧ poisonedTable u [nmodeWord] [] = false ∧
     -- an invalid descriptor, limits that hold, limits that do not
     descValid (d 6) = false ∧ (descValid (d 0) && descValid (d 1)) = true ∧
     copyLimits tTeam (d 1) (d 0) (readS u 4) (readS u 5) (readS u 6) = true ∧ copyLimits tTeam (d 1) (d 0) (readS u 4) (readS u 5) 0 = false ∧
     u.counts.getD 0 0 ≠ 63 ∧ { u with counts := [63, 0, 0, 0] }.counts.getD 0 0 = 63 ∧
     tileLimits tTeam (d 0) 1 (readS u 8) 4 = true ∧ tileLimits tTeam (d 0) 2 (readS u 8) 10 = false ∧
     metaLimits tTeam (d 0) (BitVec.ofNat 64 (8 * 2 ^ 11)) = true ∧ (descFmt (d 2) == .n32 && descNdim (d 2) == 1 && decide (256 ≤ descExt (d 2) 0)) = true ∧
     weightLimits (d 4) (readS u 12) = true ∧ boothFull (tIssue u) 0 = false ∧
     someB (captureGroup (tIssue u) 0 0 0 4 true) (fun g => decide (captureGroup (tIssue u) 0 0 0 4 false = some g) && collLimits tTeam (d 3) 0 0 (readS u 11) g.members.length) = true ∧
     (captureGroup (tIssue u) 0 0 1 4 true).isNone = true ∧ (descValid (d 3) = true ∧ descNdim (d 3) = 1 ∧ descFmt (d 3) = .f32)) := by
  refine ⟨tIssueTurn _ (by decide), ?_⟩
  decide +kernel

/-- A parameter block of 128 by 128 over td5, into tile 0, in lane 0's registers v0 to v15. -/
def tBlock : Warp :=
  { tWarp with path := 0x1, v := (List.range 16).map (fun i => (i, List.replicate 64 ([(0x84000 : Word), 5, 0, 0, 1, 128, 128, 0, 0, 0xFF, 0xFF, 0, 0, 0, 0, 0].getD i 0))) }

theorem witness_MatrixAndGatherIssue :
    (let c : Cx := ⟨tIssue tBlock, 0, 0, tBlock, tTeam⟩
     let block := (List.range 16).map (fun i => readLane tBlock i 0)
     OnTurn (tIssue tBlock) tBlock ∧ lanesOf (activeA tBlock none) = [0] ∧
     Readable tBlock (activeA tBlock none) 0 (groupRegs 0 16) [] (groupRegs 0 16) [] [] ∧ blockFields block = true ∧ blockDescs c block = true ∧
     blockRegions c block = true ∧ tagFits tTeam (some 8) = true ∧ boothFull (tIssue tBlock) 0 = false ∧ tBlock.counts.getD 1 0 ≠ 63 ∧
     { tBlock with counts := [0, 63, 0, 0] }.counts.getD 1 0 = 63) ∧
    (lanesOf (activeA tWarp none)).length ≠ 1 ∧
    (let u : Warp := { tMemW with v := tvf 5 (fun l => 28 + l % 4) (tvf 6 (4 * ·) []) }
     OnTurn (tState u) u ∧ Readable u u.path 0 [5, 6] [] [5, 6] [4] [] ∧ (∀ l, l < 64 → u.path.getLsbD l = true → (readLane u 5 l).toNat < u.deep) ∧
     (∀ e, e ∈ vmAddrs u u.path 4 6 0 4 0 → canonical e.2 = true ∧ e.2.toNat % 4 = 0) ∧ u.dPend = [] ∧ u.counts.getD 2 0 ≠ 63 ∧
     activeM u none ≠ 0 ∧ activeM u (some { tMemPre with guard := 2 }) = 0 ∧
     Readable u 0 0 [5, 6] [] [5, 6] [4] (guardRegM (some { tMemPre with guard := 2 }))) := by
  refine ⟨⟨tIssueTurn _ (by decide), by decide +kernel, ?_, ?_⟩, by decide +kernel, tTurn _ (by decide), ?_⟩
  · unfold Readable; decide
  · decide +kernel
  · unfold Readable; decide +kernel

theorem witness_TablesAndTiles :
    (let u : Warp := { tWarp with v := tv 6 0x7FFF [] }
     OnTurn (tState u) u ∧ VectorReady u none 5 [6] ∧ Readable u u.path 0 [5, 6] [] [5, 6] [] [] ∧
     ((readLane u 6 0).toNat / 2 ^ 21 = 0 ∧ (readLane u 6 0).toNat / 2 ^ 14 < (getTeam (tState u) 0 0).accB) ∧
     (0x8000 / 2 ^ 14 = (getTeam (tState u) 0 0).accB) ∧ (getTeam (tState u) 0 0).accPoison = [] ∧
     ((getTeam (tState u) 0 0).accB < (1 : BitVec 7).toNat + (1 : BitVec 7).toNat + 1 ∧
       (1 : BitVec 7).toNat + (0 : BitVec 7).toNat + 1 ≤ (getTeam (tState u) 0 0).accB) ∧
     poisonedTable u [63] [] = false ∧ (getTeam (tState u) 0 0).pool ≠ 0 ∧
     (let ck := checkLanes 0 0 0 64 .read [(0, (getTeam (tState u) 0 0).pool + 64)] (tState u)
      ck.fails.isEmpty = true ∧ ck.waits = false ∧ ck.keys = [(0, 0x300040)] ∧ 0x300040 % 64 = 0 ∧
      (loadBytes ck.s 0 0 0x300040 64).poisoned = false ∧ loadWaits ck.s 0 0 0x300040 64 = false) ∧
     (getTeam (putTeam (tState u) 0 0 { tTeam with pool := 0 }) 0 0).pool = 0) := by
  refine ⟨tTurn _ (by decide), ?_, ?_, ?_⟩
  · unfold VectorReady Readable; decide
  · unfold Readable; decide
  · decide +kernel

/-- A kernel without its optional parts. -/
def tKernel : Kernel :=
  { header := 0x30000300, shape := (16, 1, 1), entry := 0x1000, trapVa := 0x8000, quiesceVa := 0, prod := 0, pregs := 32, cregs := 32, pdeep := 0, cdeep := 0,
    accTiles := 0, tagBase := 0, tagCount := 0, cluster := (1, 1, 1) }

/-- A resident grid of mailbox 3 with one message waiting, and a counter. -/
def tGrid : Grid :=
  { ctx := 0, mbox := 3, seq := 1, kernel := tKernel, dims := (2, 1, 1), pool := 0, args := [], resident := true, resMask := 0, msgArea := 0x380000, next := 2,
    counters := [(1, 40)], msgs := [(3, { delivered := 6, popped := 5, waiting := [7] })] }

def tRun (w : Warp) (g : Grid) : State := putSlice (tState w) 0 { tSlice with grids := [(0, g)], nextGrid := 1 }

theorem tRunTurn (w : Warp) (g : Grid) (h : w.path ≠ 0) : OnTurn (tRun w g) w := ⟨rfl, h⟩

theorem witness_AppendAndMessages : OnTurn (tRun tWarp tGrid) tWarp ∧ (tfind (getSlice (tRun tWarp tGrid) 0).grids 0).isSome = true ∧
    poisonedTable tWarp [63] [] = false ∧ tTeam.spawned = false ∧ 1 ∉ tTeam.claimed ∧
    ({ tTeam with order := 1 }.order = 1 ∧ (1, 0) ∉ tGrid.claims) ∧ { tTeam with spawned := true }.spawned = true ∧
    (tGrid.resident = true ∧ tGrid.mbox = 3) ∧ ¬(tGrid.mbox = 4 ∨ tGrid.resMask.getLsbD 4 = true) ∧
    (tget {} tGrid.msgs 3).popped < (tget {} tGrid.msgs 3).delivered ∧ (tget {} tGrid.msgs 5).delivered ≤ (tget {} tGrid.msgs 5).popped := by
  refine ⟨tRunTurn _ _ (by decide), ?_⟩
  decide +kernel

theorem witness_Spawns :
    (let u : Warp := { tWarp with path := 0x4, v := tv 8 0x2000 [] }
     OnTurn (tState u) u ∧ Readable u u.path 0 [8, 9, 10, 11] [] [8, 9, 10, 11] [] [] ∧ u.det = false ∧ u.placed = 0 ∧ u.path = oneLane 2 ∧
     (BitVec.ofNat 64 ((readLane u 9 2).toNat * 2 ^ 32 + (readLane u 8 2).toNat) : DWord) = 0x2000 ∧
     someB (drainScope (tState u) 0 0 4) (fun s1 => (binFor (getCore s1 0).bins 0 0 0x2000 16).isSome &&
       decide ((getCore s1 0).bins.length + countLanes u.path ≤ 16)) = true ∧
     -- all sixteen bins in other use
     (let full : List (Nat × Bin) := (List.range 16).map (fun k => (k, { ctx := 0, grid := 9, entry := 0, grant := 16, threads := [] }))
      (binFor full 0 0 0x2000 16).isNone = true) ∧ { u with det := true }.det = true ∧
     ((readLane { u with v := tv 8 0x2002 [] } 8 2).toNat % 4 != 0) = true) := by
  refine ⟨tTurn _ (by decide), ?_, ?_⟩
  · unfold Readable; decide
  · decide +kernel

/-! ### Events of cores and engines -/

/-- A core with a second warp (slot 1) that waits, and a clean line. -/
def tTwo (w1 : Warp) : State := putWarp (tState tWarp) 0 1 w1

/-- `ULD.n32 s5, [s4 + 24]` at 0x1000. -/
def tCode (s : State) : State := { s with mem := mwriteN s.mem 0x1000 (natBytes 4 0x92288806) }

theorem witness_SchedulerEvents :
    -- a path of the lower lanes that has run long enough, and another path
    (let u : Warp := { tWarp with path := 0x0F, pathRet := 4096, pcs := laneList (fun l => if l < 4 then 0x1000 else 0x2000) }
     getWarp (tState u) 0 0 = some u ∧ warpCanRun (tState u) 0 u = true ∧ u.dispatch = none ∧ lowest u.path = some 0 ∧ 4096 ≤ u.pathRet ∧ headsPath u 4 = true ∧
     ∀ k, k < 4 → 0 < k → headsPath u k = false) ∧
    -- a ready warp with a free slot and room
    (let r : Warp := { tWarp with loc := .waiting 3 }
     let s := tTwo r
     getWarp s 0 1 = some r ∧ isReady s 0 r = true ∧
     (∀ e, e ∈ (getCore s 0).warps → e.2.bank = r.bank → isReady s 0 e.2 = true → e = (1, r) ∨ waitSeqOf r < waitSeqOf e.2) ∧
     slotTaken (getCore s 0) 0 1 = false ∧ (∀ j, j < 1 → slotTaken (getCore s 0) 0 j = true) ∧
     fastHeld (getCore s 0) 0 + (r.areg + 32) * r.grant / 16 ≤ 5120) ∧
    -- a ready warp and no free slot
    (let s := putCore (tState tWarp) 0 { getCore (tState tWarp) 0 with warps := (List.range 9).map (fun k => (k, { tWarp with loc := if k = 8 then .waiting 3 else .active k })) }
     inFast tWarp = true ∧ slotWanted s 0 tWarp.bank = true) ∧
    -- a load that misses
    (let u : Warp := { tWarp with s := [(4, 0x200000)] }
     let s := tCode (tState u)
     warpCanRun s 0 u = true ∧ u.path ≠ 0 ∧ u.parkedOn = none ∧ missedLine { s := s, core := 0, slot := 0, w := u, t := tTeam } = some 0x200000 ∧
     ({ u with loc := .parked 2 0x200000 } : Warp).loc = .parked 2 0x200000 ∧ reach s 0 0x200000 ≠ .waits) := by
  refine ⟨?_, ?_, ?_, ?_⟩
  all_goals decide +kernel

/-- A core whose second bank context, of context 1, has a warp. -/
def tSwap : State :=
  let s := putCtx (tState tWarp) 0 1 { tCtx with state := 2 }
  let ws : Tbl Warp := [(0, { tWarp with exited := 0xFFFF, path := 0 }), (1, { tWarp with bank := 1, ctx := 1, team := 1 })]
  let bin : Bin := { ctx := 0, grid := 0, entry := 0x1000, grant := 16, threads := [{ arg0 := 1, arg1 := 2 }] }
  let ts : Tbl Team := [(0, tTeam), (1, { tTeam with bank := 1, ctx := 1 })]
  putCore s 0 { getCore s 0 with bank1 := { owner := some 1, spilled := false }, warps := ws, teams := ts, bins := [(3, bin)] }

theorem witness_SchedulerEvents_swap :
    (sliceOfCore tSwap 0 = some 0 ∧ ((getCore tSwap 0).bank 1).owner = some 1 ∧ ((getCore tSwap 0).bank 0).owner = some 0 ∧
     bankHasWork tSwap 0 1 = true ∧ (getCtx tSwap 0 1).stop = none ∧ bankHasWork tSwap 0 0 = false ∧ (getCtx tSwap 0 1).state ≠ 4 ∧
     tilesOf (getCore tSwap 0) 0 + tilesOf (getCore tSwap 0) 1 ≤ 128) ∧
    (let full : State := putTeam tSwap 0 0 { tTeam with accB := 128 }
     let x : Ctx := { tCtx with saveBase := 0x200000, saveSize := 0x1000000 }
     let far : State := putCtx { full with mem := mwriteN full.mem 0x110000 (natBytes 8 (2 ^ 51 + 0x1F)), linkUp := [false, false] } 0 0 x
     128 < tilesOf (getCore full 0) 0 + tilesOf (getCore full 0) 1 ∧ (spillTiles (putCtx full 0 0 { x with saveBase := 2 ^ 40 }) 0 0 0).isSome = true ∧
     (spillTiles far 0 0 0).isNone = true) ∧
    ((getCore tSwap 0).running ≠ 1 ∧ ((getCore tSwap 0).bank 1).spilled = false) ∧
    ((tfind (getCore tSwap 0).bins 3).isSome = true ∧ (getCtx tSwap 0 0).stop = none ∧ (getCtx tSwap 0 0).state = 2) ∧
    (7 < 8 ∧ (15 * 64 + 63) / 64 < tWarp.areg ∧ (31 * 64) / 64 < tWarp.deep ∧ 2175 < 2176 ∧ 2 * 16384 - 1 < tTeam.accB * 16384) := by
  decide +kernel

/-- An L1 with stores to some lines, each in it. -/
def tFull (n : Nat) : Core := { pend := (List.range n).map (fun i => { tStore with line := 128 * i, inL1 := true }) }

theorem eraseDups_of_nodup (l : List Nat) (h : l.Nodup) : l.eraseDups = l := by
  induction l with
  | nil => rfl
  | cons a t ih =>
    have all : t.filter (fun b => !b == a) = t :=
      List.filter_eq_self.mpr (fun b hb => by
        have : b ≠ a := fun e => (List.nodup_cons.mp h).1 (e ▸ hb)
        simpa using this)
    rw [List.eraseDups_cons, all, ih (List.nodup_cons.mp h).2]

theorem tFull_dirty (n : Nat) : l1Dirty (tFull n) = (List.range n).map (128 * ·) := by
  have h : (((tFull n).pend.filter (fun e => e.inL1 && !e.flight)).map (fun e => e.line)) = (List.range n).map (128 * ·) := by
    simp only [tFull, tStore, List.filter_map, List.map_map, Function.comp_def]
    exact congrArg _ (List.filter_eq_self.mpr (fun _ _ => rfl))
  rw [l1Dirty, h]
  exact eraseDups_of_nodup _ (List.Pairwise.map _ (fun a b (e : a ≠ b) => by omega) List.nodup_range)

/-- Where every line of an L1 waits to be written back, it has no room for another. -/
theorem tFull_room (n : Nat) (h : 2048 ≤ n) : l1Room (tFull n) (128 * n) = none := by
  have out : (l1Dirty (tFull n)).contains (128 * n) = false := by
    rw [tFull_dirty, Bool.eq_false_iff]
    intro e
    obtain ⟨x, hx, e⟩ := List.mem_map.mp (List.contains_iff_mem.mp e)
    have := List.mem_range.mp hx
    omega
  have full : ((l1Dirty (tFull n)).filter (fun l => (tfind (tFull n).clean l).isNone)).length = n := by
    have all := List.filter_eq_self (l := l1Dirty (tFull n)) (p := fun l => (tfind (tFull n).clean l).isNone) |>.mpr (fun _ _ => rfl)
    rw [all, tFull_dirty, List.length_map, List.length_range]
  have noRoom : ¬ ((tFull n).clean.length + n < l1Capacity) := by
    show ¬ (0 + n < 2048)
    omega
  have cond : ((tfind (tFull n).clean (128 * n)).isSome || (l1Dirty (tFull n)).contains (128 * n) ||
      decide ((tFull n).clean.length + ((l1Dirty (tFull n)).filter (fun l => (tfind (tFull n).clean l).isNone)).length < l1Capacity)) = false := by
    rw [out, full, decide_eq_false noRoom]
    rfl
  exact if_neg (Bool.eq_false_iff.mp cond)

theorem witness_StoresAndDeferredErrors : StoresCanLand tStored 0 0 ∧
    -- a store to a line that is reached, that waits, and that is refused
    ((getCore tStored 0).pend.length = 1 ∧ reach tStored 0 0x200000 = .ok ∧ [(0x200010, (0x5A : Byte))].map (fun b => b.1) = [0x200010] ∧
     (getCore tStored 0).pend[0]? = some tStore ∧ tStore.hint ≠ 3 ∧ landWaits tStored tStore = false ∧ ownStack tStored 0 tStore.line = true ∧
     (let far := { tStore with line := 2 ^ 51 }
      landWaits { tStored with linkUp := [false, true] } far = true ∧ landsAtPort tStored far = true ∧
      reach { tStored with hostTimeout := [true, true], linkUp := [false, true] } 0 far.line = .refused ∧
      landWaits { tStored with hostTimeout := [true, true], linkUp := [false, true] } far = false)) ∧
    ((l1Room (getCore tStored 0) 0x200000).isSome = true ∧
     Rising (getCore (tState tWarp) 0).bins) ∧
    -- a deferred error of a context with room in its sump: one whose units serve it, and one with none
    (let d : Deferred := { record := 5, slice := 0, ctx := 0, sub := 1 }
     let s := putCtx { tState tWarp with deferred := [d] } 0 0 { tCtx with saveBase := 0x300000, nextSump := 1 }
     let alone : State := { s with cores := [] }
     (getCtx s 0 0).state ≠ 0 ∧ (getCtx s 0 0).nextSump < 256 ∧ servingUnits s 0 0 ≠ [] ∧ servingUnits alone 0 0 = [] ∧ gridsOf alone 0 0 = [] ∧
     let stopOf := fun (u : State) => ({ cause := BitVec.ofNat 64 (0x2A + 2 ^ 16 + 2 ^ 63), units := servingUnits u 0 0, closed := false } : Stop)
     [s, alone].all (fun u => okB (translate2 (putCtx { u with deferred := [] } 0 0 { getCtx u 0 0 with nextSump := 2, stop := some (stopOf u) })
       (ringUnit 0) 0 0x300080 .write) (fun r => r.1 == 0x300080 && !isPoisoned r.2 r.1 && decide (reach r.2 0 r.1 = .ok) && decide (gridsOf r.2 0 0 = gridsOf u 0 0) &&
         decide ((getCtx r.2 0 0).nextSump = 2))) = true) ∧
    (let d : Deferred := { record := 5, slice := 0, ctx := 3, sub := 1 }
     let st : Stop := { cause := 1, units := [], closed := true }
     let s := putCtx { tState tWarp with deferred := [d] } 0 0 { tCtx with stop := some st, nextSump := 256 }
     s.deferred = d :: [] ∧ s.powerLatch = false ∧ (getCtx s 0 3).state = 0 ∧ (getCtx s 0 0).state ≠ 0 ∧ (getCtx s 0 0).stop = some st ∧ st.closed = true ∧
     256 ≤ (getCtx s 0 0).nextSump) := by
  refine ⟨tLands, ?_⟩
  unfold Rising
  decide +kernel

/-- An operation of the running warp. -/
def tOp (cls : Nat) (k : OpKind) : AsyncOp :=
  let from_ : Origin := { ctx := 0, team := 0, slot := 0, gen := 0, pc := 0x1000, slice := 0 }
  { cls := cls, slice := 0, ctx := 0, core := 0, bank := 0, team := 0, warps := [(0, 0)], issue := 0, pos := 0x1000, kind := k, nmode := 0, origin := from_ }

/-- A state with operations in flight, for a warp that counts one of each class. -/
def tOps (os : Tbl AsyncOp) : State :=
  { tIssue { tWarp with counts := [1, 1, 1, 1] } with ops := os, nextOp := 9, sliceCfg := [(0, { w1 := 0x8080 })] }

def tGath : AsyncOp := tOp 2 (.gath [(3, 5, 0x200000)] 0)
def tCpy : AsyncOp := { tOp 0 (.cpy (tget 0 tTable 1) (tget 0 tTable 0) 0 0 (BitVec.ofNat 64 (16 + 2 ^ 24))) with permit := .granted 1000 false }
def tCollOp (members kgen : Nat) : AsyncOp :=
  tOp 3 (.coll (tget 0 tTable 3) 0 0 16 { timeout := 5, self := 0, members := List.replicate members { pkg := 1, slice := 0, addr := 0 } } kgen)

theorem witness_EngineSteps :
    (findOp (tOps [(0, tGath)]) 0 = some tGath ∧ tGath.finished = false ∧ tGath.warps = (0, 0) :: [] ∧
     someB (getWarp (tOps [(0, tGath)]) 0 0) (fun w => someB (gatherLanes tGath [(3, 5, 0x200000)] (tOps [(0, tGath)]) w) (fun r => r.2.2.isEmpty)) = true) ∧
    (let s := tOps [(0, tCpy)]
     isBurst tCpy = true ∧ opRuns s tCpy = true ∧ permitHolds tCpy = true ∧ usesTiles tCpy = false ∧
     someB (runUnits (copyUnit tCpy) (burstRange tCpy) s []) (fun r => r.2.2.isNone) = true ∧ copyTotal tCpy ≤ (tCpy.progress + 1) * burstUnits tCpy) ∧
    (let far : AsyncOp := { tCpy with kind := .cpy (tget 0 tTable 1) (tDesc 0x200000000 0 2 256 256 0 0) 0 0 (BitVec.ofNat 64 (16 + 2 ^ 24)) }
     someB (runUnits (copyUnit far) (burstRange far) (tOps [(0, far)]) []) (fun r => r.2.2.isSome) = true) ∧
    (let act := tOp 0 (.actld (tget 0 tTable 2))
     opRuns (tOps [(0, act)]) act = true ∧ actldTurn (tOps [(0, act)]) 0 act = true) ∧
    (let one := tCollOp 1 0
     let two : AsyncOp := { tCollOp 2 0 with joined := true }
     let s := tOps [(0, two)]
     let c := (collOf two).getD { td := 0, p0 := 0, p1 := 0, p2 := 0, g := { timeout := 0, self := 0, members := [] }, kgen := 0 }
     findOp s 0 = some two ∧ collOf two = some c ∧ opRuns s two = true ∧ 1 < c.g.members.length ∧ presentPartners s two c = [] ∧
     (s.ops.map (fun e => e.1)).Nodup ∧ rotated s two c = false ∧ rotated s two { c with kgen := 1 } = true ∧ c.g.timeout ≠ 0 ∧
     allJoined s two c = false ∧ (partners s two c).isSome = true ∧ two.progress + 1 < collSteps c.td 2048 2 ∧ collSteps c.td c.p2 2 ≤ two.progress + 1 ∧
     localMembers s c = [] ∧
     someB (collOf one) (fun c1 => localMembers (tOps [(0, one)]) c1 == [] &&
       match collResult (tOps [(0, one)]) one c1 with
       | .ok r s1 => r.1.length == 16 && someB (collWrites one c1.td c1.p1.toNat r.1 s1) (fun x => x.2.isNone)
       | .waits => false
       | .fails _ => false) = true ∧
     collSteps (tget 0 tTable 3) 16 1 ≤ one.progress + 1 ∧ opRuns (tOps [(0, one)]) one = true) := by
  refine ⟨?_, ?_, ?_, ?_, ?_⟩
  all_goals decide +kernel

def tWload : AsyncOp := { tOp 1 (.wload 0 (tget 0 tTable 4) (BitVec.ofNat 64 (1 + 2 ^ 16)) 1) with permit := .granted 1000 false }
def tSet : WeightSet :=
  { slice := 0, ctx := 0, gen := 1, bank := 0, macros := [0], scaleBytes := 128, fmt := .i4, sfmt := 0, group := 32, cols := 128, rows := 128, weights := [], scales := [] }
def tMx : AsyncOp :=
  { tOp 1 (.mxissue ([0, 5, 0, 0, 1, 128, 128, 0, 0, 0xFF, 0xFF, 0, 0, 0, 0, 0].map (BitVec.ofNat 32)) (tget 0 tTable 5) none none 1) with permit := .granted 1000 false }

theorem witness_CompletionsAndPermits :
    (let o : AsyncOp := { tGath with finished := true, err := some { err := 1, addr := 0x5000 } }
     let s := tOps [(2, o)]
     findOp s 2 = some o ∧ o.finished = true ∧ o.dropped = false ∧ (s.ops.map (fun e => e.1)).Nodup ∧ o.warps = [(0, 0)] ∧
     (∀ e, e ∈ s.ops → e.1 < 2 → e.2.cls ≠ o.cls) ∧ slotGen s 0 0 = 0 ∧ someB (getWarp s 0 0) (fun w => liveLanes w != 0) = true ∧
     slotGen s 0 0 ≠ 1 ∧ o.cls < 2 ^ 16) ∧
    (let o : AsyncOp := { tMx with permit := .none }
     o.permit = .none ∧ needsPermit o = true ∧ opRuns (tOps [(0, o)]) o = true) ∧
    (let q : AsyncOp := { tMx with permit := .queued 4 false 1000 }
     let s := tOps [(0, q)]
     someB (requestsOf s 0).head? (fun r => r.op == 0 && fitsOwn s 0 r) = true ∧ permitStopped s 0 = false ∧ soleGranted s 0 = false ∧
     soleGranted (tOps [(0, q), (1, { tMx with permit := .granted 1000 true })]) 0 = true ∧
     (requestsOf s 0).length = 1 ∧
     -- one that has waited the limit holds back a younger one of its class
     (requestsOf (tOps [(0, { tMx with permit := .queued 4 true 1000 }), (1, { tMx with permit := .queued 5 false 1000 })]) 0).map (fun r => (r.op, r.aged)) =
       [(0, true), (1, false)] ∧
     permitStopped { s with sensors := [(0, { seq := 1, valid := true, kind := 0, value := BitVec.ofNat 24 (256 * 107) })] } 0 = true) ∧
    (let q : AsyncOp := { tMx with permit := .queued 4 true 100000000 }
     let s := tOps [(0, q), (1, { tMx with permit := .granted 1400000000 false })]
     someB (requestsOf s 0).head? (fun r => r.aged && !fitsOwn s 0 r && !fitsBorrowed s 0 r && !fitsAlone s 0 r) = true) ∧
    -- one that borrows, and one too large for its slice's share
    (let q : AsyncOp := { tMx with permit := .queued 4 false 100000000 }
     let s := tOps [(0, q), (1, { tMx with permit := .granted 700000000 false })]
     let one := tOps [(0, { tMx with permit := .queued 4 false 800000000 })]
     someB (requestsOf s 0).head? (fun r => !fitsOwn s 0 r && fitsBorrowed s 0 r) = true ∧
     someB (requestsOf one 0).head? (fun r => !fitsOwn one 0 r && fitsAlone one 0 r) = true ∧ inBooth s 0 0 = true) := by
  refine ⟨?_, ?_, ?_, ?_, ?_⟩
  all_goals decide +kernel

def tEngine (p : Option Pass) : Tbl Engine := [(0, { slots := [(0, tSet)], gens := [(0, 1)], passing := p })]
def tPass : Pass := { op := 0, rows := [(0, [])], sparse := [] }

theorem witness_MatrixEngine :
    (let s := { tOps [(0, tWload)] with engines := [(0, { gens := [(0, 1)] })] }
     opRuns s tWload = true ∧ inBooth s 0 0 = true ∧ permitHolds tWload = true ∧ (getEngine s 0).passing = none ∧ (earlierOn s 0 0 0).isEmpty = true ∧
     (chooseBank s 0 0 (macrosOf (tget 0 tTable 4) (wregion (BitVec.ofNat 64 (1 + 2 ^ 16))))).isSome = true ∧
     scalesUsed (getEngine s 0) 0 + scaleNeed (tget 0 tTable 4) (wregion (BitVec.ofNat 64 (1 + 2 ^ 16))) ≤ 131072) ∧
    (let s := { tOps [(0, tWload)] with engines := [(0, { slots := [(1, { tSet with scaleBytes := 131073 })], gens := [(0, 1)] })] }
     131072 < scalesUsed (getEngine s 0) 0 + scaleNeed (tget 0 tTable 4) (wregion (BitVec.ofNat 64 (1 + 2 ^ 16)))) ∧
    (let s := { tOps [(0, tMx)] with engines := tEngine none }
     (getEngine s 0).passing = none ∧ (0, tMx) ∈ boothEntries s 0 ∧ eligible s 0 (0, tMx) = true ∧
     (∀ e, e ∈ boothEntries s 0 → eligible s 0 e = true → e = (0, tMx) ∨ e.2.prio < tMx.prio)) ∧
    (let s := { tOps [(0, tMx)] with engines := tEngine (some tPass) }
     (getEngine s 0).passing = some { op := 0, rows := [(0, [])], sparse := [] } ∧ tfind (getEngine s 0).slots 0 = some tSet ∧
     (getTeam s 0 0).accPoison = [] ∧
     (match tMx.kind with
      | .mxissue w _ _ _ _ => !rowMismatch tSet w [] (passAt w tSet.fmt.formsB8 0) (0, [])
      | _ => false) = true ∧ (0 : Nat) % 7 = ((0 : Int) % 7).toNat) ∧
    ({ tTeam with accPoison := [5] }.accPoison = [5] ∧ elemKey ([0, 5, 0, 0, 1, 128, 128, 0, 0, 0xFF, 0xFF, 0, 0, 0, 0, 0].map (BitVec.ofNat 32)) 0 5 = 5 ∧
     bitOf (blockWord ([0x100, 5].map (BitVec.ofNat 32)) 0) 8 = true) := by
  refine ⟨?_, ?_, ?_, ?_, ?_⟩
  all_goals decide +kernel

theorem test_residue_mismatch : (findOp (tAfter (.mePassEnd 0 true) { tOps [(0, tMx)] with engines := tEngine (some tPass) }) 0).map
    (fun o => (o.finished, o.err, o.events)) = some (true, some { err := 8, addr := 0 }, tMx.events ++ [6]) := by decide +kernel

/-- A context that is stopping, with its units left. -/
def tStop (units : List EngineRef) (w : Warp) : State :=
  putCtx (tState w) 0 0 { tCtx with stop := some { cause := 0x8000000000000023, units := units, closed := false }, saveBase := 0x300000 }

theorem witness_StopsAndCoreResets :
    (let s := tStop [.copy 0, .coll 1] tWarp
     someB (getCtx s 0 0).stop (fun st => !st.closed && st.units.contains (.copy 0) && st.units.contains (.coll 1)) = true ∧ s.powerLatch = false ∧
     gridsOf s 0 0 = [] ∧ unitOps s 0 0 (.copy 0) = [] ∧ unitOps s 0 0 (.coll 1) = [] ∧ surfacedErr s 0 0 (.copy 0) = none ∧
     surfacedErr s 0 0 (.coll 1) = none ∧ 0x300000 % 128 = 0) ∧
    -- the last unit of a context with a grid, whose launch record waits for nothing or, behind a port that is down, for its completion record
    (let h := fun (compl : Nat) => ({ seq := 1, words := [0x300, BitVec.ofNat 64 compl] ++ List.replicate 14 0, started := true } : Held)
     let st : Stop := { cause := 0x8000000000000023, units := [.copy 0], closed := false }
     let at_ := fun (compl : Nat) =>
       let s := tState tWarp
       let s := putSlice s 0 { tSlice with grids := [(0, { tGrid with mbox := 0, resident := false, msgs := [] })], mboxes := [(0, { held := [h compl] })] }
       putCtx { s with linkUp := [false, false], mem := mwriteN s.mem 0x110008 (natBytes 8 (2 ^ 51 + 0x1F)) } 0 0 { tCtx with stop := some st, saveBase := 0x300000 }
     let after := fun (s : State) => unitRecords (endCut s (.copy 0) (cutPass s 0 0 (.copy 0))) 0 0 (.copy 0) (cutPass s 0 0 (.copy 0))
     gridsOf (at_ 0x300000) 0 0 ≠ [] ∧ gathersLeft (at_ 0) 0 0 (.copy 0) = false ∧
     someB (after (at_ 0x300000)) (fun s1 => decide ((getCtx s1 0 0).stop = some st) && (postStatus (unitStopped s1 0 0 (.copy 0)) 0 0 (h 0x300000) 3 0 false).isSome) = true ∧
     someB (after (at_ 0x200000000)) (fun s1 => (postStatus (unitStopped s1 0 0 (.copy 0)) 0 0 (h 0x200000000) 3 0 false).isNone) = true) ∧
    (let f : Warp := { tWarp with faulted := true, trapCause := 0x8000000000000023 }
     let s := tStop [.core 0] f
     gathersLeft s 0 0 (.core 0) = false ∧ failedGather s 0 0 0 = none ∧ firstFaulted s 0 0 0 = some (0, f) ∧ (getCtx s 0 0).nextSump < 256 ∧
     okB (translate2 (putCtx s 0 0 { getCtx s 0 0 with nextSump := 1 }) (ringUnit 0) 0 0x300000 .write) (fun r =>
       r.1 == 0x300000 && !isPoisoned r.2 r.1 && decide (reach r.2 0 r.1 = .ok) && (gridsOf r.2 0 0).isEmpty &&
         decide (getCtx r.2 0 0 = { getCtx s 0 0 with nextSump := 1 })) = true) ∧
    (sliceOfCore tStored 7 = some 0 ∧ someB (drainAll tStored 0) (fun s1 => (getCtx s1 0 0).stop.isNone) = true ∧ accepts tStored = true ∧
     (0x80 : DWord).getLsbD 7 = true ∧ (0x80 : DWord).toNat % 128 = 0 ∧ sliceOfCore tStored 8 = none) := by
  refine ⟨?_, ?_, ?_, ?_⟩
  all_goals decide +kernel

/-- A read that waits for a port. -/
def isWait {α : Type} (r : Except TrErr α) : Bool :=
  match r with
  | .error .waits => true
  | .error _ => false
  | .ok _ => false

/-- The kind of a translation that fails. -/
def failKind {α : Type} (r : Except TrErr α) : Option Nat :=
  match r with
  | .error (.fail _ k _) => some k
  | .error _ => none
  | .ok _ => none

/-- A context whose quiesce goes on. -/
def tQuiet (x : Ctx) : State := putCtx (tState tWarp) 0 0 x

theorem witness_QuiesceAndSave :
    (accepts (tQuiet tCtx) = true ∧ (getCtx (tQuiet tCtx) 0 0).state = 2 ∧ (getCtx (tQuiet tCtx) 0 5).state = 0) ∧
    (let q : Quiesce := { delivered := [], expired := false }
     let s := tQuiet { tCtx with state := 4, quiesce := some q }
     (getCtx s 0 0).quiesce = some q ∧ (getCtx s 0 0).state = 4 ∧ q.expired = false ∧ s.powerLatch = false ∧ (getCtx s 0 0).stop = none ∧ 0 ∉ q.delivered ∧
     passOf s 0 0 (fun o => o.core == 0) = false ∧ sliceOfCore s 0 = some 0 ∧ quiesceDone s 0 0 q = false) ∧
    (let q : Quiesce := { delivered := [0], expired := true }
     let s := tQuiet { tCtx with state := 4, quiesce := some q, saveSize := 0x1000000 }
     let s0 := (coresOf s 0).foldl (declineExited 0 0) s
     (getCtx s 0 0).quiesce = some q ∧ s.powerLatch = false ∧ stopRuns (getCtx s 0 0) = false ∧ enginesStand s 0 0 = true ∧ q.expired = true ∧
     ((drainCores (coresOf s0 0) s0).bind (fun s1 => flushSlice s1 0)).isSome = true ∧
     32768 + imageBytes (imageOf s0 0 0) ≤ (getCtx s 0 0).saveSize.toNat ∧
     -- an area that is written (with no team, none of it), one that cannot be, and one behind a port that is down
     okB (writeArea (clearContext s 0 0) 0 0 0) (fun _ => true) = true ∧ (failKind (writeArea (clearContext (putCtx s 0 0 { getCtx s 0 0 with saveBase := 0x200000000 }) 0 0) 0 0 128)).isSome = true ∧
     isWait (writeArea { clearContext (putCtx s 0 0 { getCtx s 0 0 with saveBase := 0x200000000 - 0x8000 }) 0 0 with
       linkUp := [false, false], mem := mwriteN s.mem 0x110008 (natBytes 8 (2 ^ 51 + 0x1F)) } 0 0 128) = true ∧ (0x8000 : DWord).toNat < 32768 + imageBytes (imageOf s0 0 0)) := by
  refine ⟨?_, ?_, ?_⟩
  all_goals decide +kernel

def tKey : MigKey := { id := 1, srcPkg := 0, srcSlice := 0, dstPkg := 0, dstSlice := 0 }

theorem witness_ResumeAndMigration :
    (accepts (tQuiet { tCtx with state := 3 }) = true ∧ (getCtx (tQuiet { tCtx with state := 3 }) 0 0).state = 3) ∧
    (let s := tQuiet { tCtx with state := 5, image := some {} }
     (getCtx s 0 0).state = 5 ∧ (getCtx s 0 0).image = some {} ∧ canResume s 0 0 {} = true ∧
     (getCtx (tQuiet { tCtx with state := 8, paused := 2 }) 0 0).paused = 2 ∧
     canResume (tQuiet { tCtx with state := 8, paused := 5, image := some {} }) 0 0 {} = true ∧
     (getCtx (tQuiet { tCtx with state := 8, paused := 4 }) 0 0).paused = 4 ∧
     (let i : Image := { teams := [{ team := tTeam, index := 0, core := 0, slots := [], tagRdy := 0, tagErrs := [] }], exc := [(0, 1, {})] }
      i.teams ≠ [] ∧ i.cores ≠ coresOf s 0 ∧ { i with cores := [0, 1, 2, 3, 4, 5, 6, 7] }.cores = coresOf s 0 ∧ (i.exc.map (fun e => (e.1, e.2.1))).Nodup)) ∧
    (let i : Image := { teams := [{ team := { tTeam with accB := 129 }, index := 0, core := 0, slots := [], tagRdy := 0, tagErrs := [] }] }
     canResume (tQuiet { tCtx with state := 5, image := some i }) 0 0 i = false ∧ i.teams ≠ []) ∧
    ((getCtx (tQuiet tCtx) 0 0).state = 2 ∧ (getSlice (tQuiet tCtx) 0).migKey = none) ∧
    (let s := tQuiet { tCtx with state := 5, image := some {} }
     let s := putSlice s 0 { getSlice s 0 with migKey := some tKey, expbase := 0x200000 }
     (getSlice s 0).migKey = some tKey ∧ tKey.srcPkg = s.pkgid ∧ tKey.srcSlice = 0 ∧ { tKey with srcPkg := 7 }.srcPkg ≠ s.pkgid ∧
     (getCtx s 0 7).state = 0 ∧ okB (pageList s 0) (fun _ => true) = true ∧
     -- lines of a save area that are read and written, and one that lies nowhere; an area too small for an image
     okB (linesRead 0 0x300000 1 s) (fun r => r.1.length == 128) = true ∧ (failKind (linesRead 0 0x400000000 256 s)).isSome = true ∧
     okB (lineWrite s 0 0x300000 (natBytes 128 5)) (fun _ => true) = true ∧ okB (placeImage s 0 0 {}) (fun _ => true) = false ∧
     isWait (olsanRead { s with linkUp := [false, false], mem := mwriteN s.mem 0x110008 (natBytes 8 (2 ^ 51 + 0x1F)) } 0 0x200000000 1) = true) := by
  refine ⟨?_, ?_, ?_, ?_, ?_⟩
  all_goals decide +kernel

theorem witness_SliceControl :
    (accepts (tState tWarp) = true ∧ vfEnabled (tState tWarp) 0 = true ∧ vfEnabled (tState tWarp) 1 = false) ∧
    (let s := putSlice (tState tWarp) 0 { tSlice with s2busy := true, s1inv := some 3, evhead := 64 }
     (getSlice s 0).s2busy = true ∧ (getSlice s 0).s1inv = some 3 ∧ (getSlice (tState tWarp) 0).s1inv = none ∧ ((getSlice s 0).evhead - 0).toNat ≤ 64 ∧ (getCtx s 0 15).state = 0 ∧
     (getCtx s 0 0).state ≠ 0 ∧ (getCtx (tQuiet { tCtx with state := 1 }) 0 0).state = 1) := by
  decide +kernel

/-! ### Mailboxes, launches, and the module's own control -/

/-- Mailbox 0 with layout 3 at 0x380000, of 16 slots, enabled. -/
def tMbox : Mailbox := { base := 0x380, size := 4, enable := true, weight := 1, layout := 3 }

/-- A slice whose mailbox 0 is as given. -/
def tMail (b : Mailbox) : State := putMbox (tState tWarp) 0 0 b

/-- A record's sixteen words with the first ones given. -/
def tHeld (ws : List Nat) : Held := { seq := 1, words := ((ws ++ List.replicate 16 0).take 16).map (BitVec.ofNat 64), started := true }

/-- A wait record sealed in the ring's second slot. -/
def tSealed : State :=
  let s := tMail tMbox
  { s with mem := mwriteN (mwriteN s.mem 0x380080 (natBytes 8 0x301)) 0x3800F8 (natBytes 8 1) }

/-- What a read of a ring slot is: a record 0, a mismatch 1, a wait 2, a fault 3. -/
def slotIs (r : Slot) (n : Nat) : Bool :=
  match r with
  | .record _ _ => n == 0
  | .mismatch _ => n == 1
  | .waits => n == 2
  | .fault _ _ => n == 3

theorem witness_MailboxesAndRecords :
    (accepts (tMail {}) = true ∧ vfEnabled (tMail {}) 0 = true ∧ (getMbox (tMail {}) 0 0).enable = false ∧ (getMbox (tMail tMbox) 0 0).enable = true ∧
     mayWork (tMail tMbox) 0 = true ∧ heldCount tMbox < 16 ∧ heldCount { tMbox with held := List.replicate 16 (tHeld [1]) } = 16) ∧
    slotIs (readRingSlot (tMail { tMbox with fetch := some (0, false) }) 0 0) 1 = true ∧
    (match readRingSlot (putMbox tSealed 0 0 { tMbox with fetch := some (0, false) }) 0 0 with
      | .record h s1 => slotIs (readRingSlot (putMbox s1 0 0 { tMbox with held := [h], expseq := 2 }) 0 0) 1
      | .mismatch _ => false
      | .waits => false
      | .fault _ _ => false) = true ∧
    slotIs (readRingSlot (tMail { tMbox with base := 2 ^ 24, fetch := some (0, false) }) 0 0) 3 = true ∧
    (let h : Held := { tHeld [0x301] with started := false }
     let b : Mailbox := { tMbox with held := [h] }
     nextRecord b = some h ∧ b.halted = false ∧ mayWork (tMail b) 0 = true ∧ mayStart (tMail b) 0 h = true ∧
     activeRecord (tMail b) 0 0 1 = none ∧
     (let l : Held := { tHeld [0x300, 0, 0x300000] with started := false }
      let s := putCtx (tMail { tMbox with held := [l] }) 0 0 { tCtx with state := 3 }
      nextRecord { tMbox with enable := false, held := [l] } = some l ∧ mayStart s 0 l = false)) ∧
    -- a launch that waits for its context, one whose grid has gone, and a record behind one that runs
    (let l : Held := tHeld [0x300, 0, 0x300000]
     let s := putCtx (tMail { tMbox with held := [l] }) 0 0 { tCtx with state := 3 }
     (activeRecord s 0 0 1).isNone = true ∧ activeRecord s 0 0 0 = some l ∧ mayStart s 0 l = false ∧
     gridStopped (tMail tMbox) 0 { l with grid := some 4 } = true ∧ (activeRecord (tMail tMbox) 0 0 0).isNone = true ∧
     (∃ e, e ∈ [l] ∧ e.started = true ∧ e.complete = false ∧ e.released = false)) ∧
    (let h := tHeld [0x301, 0, 0x40, 5]
     let s := tMail { tMbox with held := [h], lastdone := 5 }
     activeRecord s 0 0 1 = some h ∧ bitOf (recWord h 2) 6 = true ∧ recWord h 3 ≤ (getMbox s 0 0).lastdone.toNat ∧
     (getMbox (tMail { tMbox with held := [h], lastdone := 4 }) 0 0).lastdone.toNat < recWord h 3) ∧
    (let h := tHeld [0x302, 0, 0x300000, 7]
     let s := tMail { tMbox with held := [h] }
     activeRecord s 0 0 2 = some h ∧
     okB (translate2 s (ringUnit 0) 0 (recWord h 2) .write) (fun r => r.1 == 0x300000 && !isPoisoned r.2 r.1 && decide (reach r.2 0 r.1 = .ok)) = true ∧
     isPoisoned { s with poison := [(0x300000, 0)] } 0x300000 = true) := by
  refine ⟨?_, ?_, ?_, ?_, ?_, ?_, ?_, ?_⟩
  all_goals decide +kernel

/-- A message for mailbox 3 of the resident grid `tGrid`. -/
def tMessage (g : Grid) : State := putMbox (tRun tWarp g) 0 3 { tMbox with held := [tHeld [0x303]] }

theorem witness_MessagesAndCompletion :
    (activeRecord (tMessage tGrid) 0 3 3 = some (tHeld [0x303]) ∧ (tMessage tGrid).powerLatch = false ∧ ownerOf (getSlice (tMessage tGrid) 0) 3 = some (0, tGrid) ∧
     (msgsOf tGrid 3).waiting.length < 8 ∧
     okB (translate (tMessage tGrid) (ringUnit 0) 0 0 (0x380000 + BitVec.ofNat 64 (3 * 2048 + 6 % 16 * 128)) .write) (fun r =>
       !isPoisoned r.2 r.1 && decide (reach r.2 0 r.1 = .ok)) = true ∧
     8 ≤ (msgsOf { tGrid with msgs := [(3, { delivered := 8, popped := 0, waiting := List.range 8 })] } 3).waiting.length ∧
     ownerOf (getSlice (tMessage { tGrid with resident := false }) 0) 3 = none ∧ { tHeld [0x303] with orphan := true }.orphan = true ∧
     (tHeld [0x303]).orphan = false) ∧
    (let h : Held := { tHeld [0x301, 0x300000] with done := true }
     let s := tMail { tMbox with held := [h] }
     (getMbox s 0 0).held = h :: [] ∧ h.done = true ∧ s.powerLatch = false ∧ recWord h 1 ≠ 0 ∧ recWord h 1 % 16 = 0 ∧
     okB (translate2 s (ringUnit 0) 0 (recWord h 1) .write) (fun r =>
       decide (getMbox r.2 0 0 = getMbox s 0 0) && !isPoisoned r.2 r.1 && decide (reach r.2 0 r.1 = .ok)) = true ∧
     recWord (tHeld [0x301]) 1 = 0) := by
  refine ⟨?_, ?_⟩
  all_goals decide +kernel

/-- A kernel descriptor at 0x300000 of teams of 16 threads, and a launch record for it. -/
def tLaunch (d : Nat) : State :=
  let s := tMail { tMbox with held := [tHeld [0x300, 0, 0x300000, 0, 0, 0]] }
  { s with mem := mwriteN s.mem 0x300000 (natBytes 64 d), cores := [] }

def tKdesc : Nat := 0x30000300 + 15 * 2 ^ 32 + 0x1000 * 2 ^ 64 + 0x8000 * 2 ^ 128

theorem witness_LaunchesAndPlacement_launch :
    (let s := tLaunch tKdesc
     let h := tHeld [0x300, 0, 0x300000, 0, 0, 0]
     activeRecord s 0 0 0 = some h ∧ mayWork s 0 = true ∧ recordError s 0 h = none ∧ (getCtx s 0 0).state = 2 ∧ (getCtx s 0 0).stop = none ∧ recWord h 2 % 64 = 0 ∧
     okB (readKernel s 0 0 (h.words.getD 2 0)) (fun r => kernelOk r.1 && dimsFit (gridOf h 0 (kernelOf r.1)) &&
       (placementError r.2 0 (getSlice r.2 0).nextGrid (gridOf h 0 (kernelOf r.1))).isNone) = true) ∧
    (okB (readKernel (tLaunch (tKdesc + 1)) 0 0 0x300000) (fun r => !kernelOk r.1) = true) ∧
    -- a descriptor or an entry behind a port that is down, a poisoned descriptor, one without a translation
    (let s := tLaunch (tKdesc - 0x1000 * 2 ^ 64 + 0x200000000 * 2 ^ 64)
     let down : State := { s with linkUp := [false, false], mem := mwriteN (mwriteN s.mem 0x110008 (natBytes 8 (2 ^ 51 + 0x1F))) 0x130008 (natBytes 8 (2 ^ 33 + 0x0F)) }
     isWait (readKernel down 0 0 0x200000000) = true ∧
     okB (readKernel down 0 0 0x300000) (fun r => entryWaits r.2 0 0 (kernelOf r.1).entry) = true ∧
     okB (readKernel (tLaunch tKdesc) 0 0 0x300000) (fun r => !entryWaits r.2 0 0 (kernelOf r.1).entry) = true ∧
     (match readKernel { tLaunch tKdesc with poison := [(0x300000, 0)] } 0 0 0x300000 with
      | .error (.poison _) => true
      | .error _ => false
      | .ok _ => false) = true ∧
     (failKind (readKernel (tLaunch tKdesc) 0 0 0x400000000)).isSome = true) ∧
    (okB (readKernel (tLaunch (tKdesc + 16 * 2 ^ 269)) 0 0 0x300000) (fun r => !(kernelOk r.1 && (placementError r.2 0 0 (gridOf (tHeld [0x300, 0, 0x300000]) 0
       (kernelOf r.1))).isNone)) = true) ∧
    recWord (tHeld [0x300, 0, 0x300001]) 2 % 64 ≠ 0 ∧ (getCtx (tLaunch tKdesc) 0 4).state = 0 ∧
    recordError (tLaunch tKdesc) 0 (tHeld [0x300, 0, 0x300000, 0, 0, 4]) = some 5 ∧ (tHeld [0x300]).bad = none ∧
    mayWork { tLaunch tKdesc with deviceErr := true } 0 = false := by
  refine ⟨?_, ?_, ?_, ?_, ?_⟩
  all_goals decide +kernel

/-- A running grid of two teams whose first is on core 0. -/
def tPlacing : Grid := { tGrid with mbox := 0, resident := false, next := 1, msgs := [] }

theorem witness_LaunchesAndPlacement :
    (let s := tRun tWarp tPlacing
     mayWork s 0 = true ∧ trySpawn s 0 = none ∧ (savedHeads s 0).isEmpty = true ∧ (savedLeft s 0).isEmpty = true ∧
     entryWaits s 0 0 tPlacing.kernel.entry = false ∧ (getSlice s 0).grids = [(0, tPlacing)] ∧ tPlacing.next < teamCount tPlacing ∧
     (getCtx s 0 0).state = 2 ∧ (getCtx s 0 0).stop = none ∧ tPlacing.kernel.det = false ∧ gridPrio s 0 tPlacing < 4 ∧
     (chooseCore s (coresOf s 0) 0 tPlacing.kernel (grantsFor (requestFor s 0 0 tPlacing.kernel))).isSome = true ∧
     (bankFor (getCore s 0) 0).isSome = true ∧ (tfree (getCore s 0).teams 56 0).isSome = true) ∧
    ((getSlice (tState tWarp) 0).grids = [] ∧ (trySpawn (tState tWarp) 0).isNone = true ∧ (savedHeads (tState tWarp) 0).isEmpty = true) ∧
    (teamCount tGrid ≤ tGrid.next ∧ { tGrid with running := false }.running = false ∧ tGrid.running = true ∧ tGrid.record = none ∧
     { tGrid with record := some (tHeld [0x300]) }.record = some (tHeld [0x300])) := by
  refine ⟨?_, ?_, ?_⟩
  all_goals decide +kernel

/-- A grid whose one team, on core 0, has exited but for its end. -/
def tEnding (k : Kernel) : State := tRun { tWarp with exited := 0xFFFF, path := 0 } { tPlacing with kernel := k, dims := (1, 1, 1) }

theorem witness_LaunchesAndPlacement_end :
    (let s := tEnding tKernel
     let g : Grid := { tPlacing with dims := (1, 1, 1) }
     tfind (getSlice s 0).grids 0 = some g ∧ tfind (getCore s 0).teams 0 = some tTeam ∧ tTeam.slice = 0 ∧ tTeam.grid = 0 ∧ tTeam.spawned = false ∧
     tTeam.order ∉ g.exited ∧ (liveWarps s 0 0).isEmpty = true ∧ teamOps s 0 0 = false ∧ s.powerLatch = false ∧ (getCtx s 0 0).stop = none ∧ (getCtx s 0 0).state = 2) ∧
    (let g : Grid := { tPlacing with kernel := { tKernel with header := 0x38000300 }, exited := [0] }
     g.kernel.det = true ∧ g.retired * clusterSize g.kernel < g.next ∧ ∀ j, j < clusterSize g.kernel → g.retired * clusterSize g.kernel + j ∈ g.exited) ∧
    (let g : Grid := { tPlacing with dims := (1, 1, 1) }
     let s := putCore (tRun tWarp g) 0 {}
     teamCount g ≤ g.next ∧ g.running = true ∧ teamsLeft s 0 0 = false ∧ spawnsLeft s 0 0 0 = false ∧ g.record = none ∧ statusPending s 0 g = false ∧
     someB ((drainCores (coresOf s 0) s).bind (fun s1 => flushSlice s1 0)) (fun s1 => s1.deferred.isEmpty) = true) ∧
    -- a quiescing context; messages not popped and held; and a grid that came with an import
    (let g : Grid := { tGrid with dims := (1, 1, 1), next := 1 }
     let s := putCtx (putMbox (putCore (tRun tWarp g) 0 {}) 0 3 { tMbox with held := [tHeld [0x303]] }) 0 0 { tCtx with state := 4 }
     (getCtx s 0 0).state = 4 ∧ statusPending s 0 g = false ∧ (3, { delivered := 6, popped := 5, waiting := [7] }) ∈ g.msgs ∧ ownsMailbox g 3 = true ∧
     activeRecord s 0 3 3 = some (tHeld [0x303]) ∧ ((getMbox s 0 3).held.map (fun h => h.seq)).Nodup ∧
     (∀ h, h ∈ (getMbox s 0 3).held → h.started = true) ∧
     (let h := tHeld [0x300, 0x300000]
      let g : Grid := { tGrid with record := some h }
      recWord h 1 ≠ 0 ∧ recWord h 1 % 16 = 0 ∧
      okB (translate2 (orphanMessages (putSlice s 0 { getSlice s 0 with grids := [] }) 0 g) (ringUnit 0) 0 (recWord h 1) .write) (fun r =>
        !isPoisoned r.2 r.1 && decide (reach r.2 0 r.1 = .ok)) = true)) := by
  refine ⟨?_, ?_, ?_, ?_⟩
  all_goals decide +kernel

/-- A module whose semaphore port A holds with token 5. -/
def tHolds (s : State) : State := { s with laysemHeld := true, laysemPort := .a, laysemToken := 5, tokenCtr := 5 }

theorem witness_ModuleHardware :
    ({ tState tWarp with powerLatch := true }.powerLatch = true ∧ (tState tWarp).powerLatch = false ∧ (tState tWarp).deviceErr = false) ∧
    ((4 + 5 * 2 ^ 32 : DWord).toNat % 16 = 4 ∧ layRefused (tHolds (tState tWarp)) .a (4 + 5 * 2 ^ 32) = false ∧
     layRefused (tState tWarp) .a 4 = true ∧ layoutSettled (tHolds (tState tWarp)) = true ∧
     layoutSettled { tHolds (tState tWarp) with layPhase := 3 } = false ∧
     (let off : State := { tState tWarp with powerLatch := true }
      off.deviceErr = false ∧ off.fwstat = 0 ∧ { off with fwstat := 2 }.fwstat = 2 ∧ { off with fwstat := 3 }.fwstat = 3)) ∧
    ((tState tWarp).linkUp.length = 2 ∧ portUp (tState tWarp) .a = true ∧ portUp { tState tWarp with linkUp := [false, true] } .a = false ∧
     slicePort (tState tWarp) 0 = .a ∧ 15 < 16 ∧ 7 < 8 ∧
     (∀ n, n < 16 → (getSlice (tState tWarp) n).slstat ≠ 1 ∧ (getSlice (tState tWarp) n).xlreq = none ∧
       ∀ e, e ∈ (getSlice (tState tWarp) n).ctxs → e.2.state ≠ 7) ∧
     ((drainCores ((coresOf tStored 0).filter (fun c => (getCore tStored c).pend.any (fun e => inHostPage 0x20 e.line))) tStored).bind
       (fun s2 => flushLines s2 0 ((l2Lines s2 0).filter (inHostPage 0x20)))).isSome = true) ∧
    (24 < 25 ∧ 25 ≤ 25 ∧ (17 : Nat) < 18 ∧ (18 : Nat) ≤ 18 ∧ (109 * 256 : BitVec 24).toInt < 110 * 256 ∧ 110 * 256 ≤ (110 * 256 : BitVec 24).toInt ∧
     100 * 256 ≤ (100 * 256 : BitVec 24).toInt ∧ lineOwners (tState tWarp) (lineOf 0x300010) = [0] ∧ (tState tWarp).resetPending = false ∧
     accepts (tState tWarp) = true ∧ accepts { tState tWarp with deviceErr := true } = false) := by
  refine ⟨?_, ?_, ?_, ?_⟩
  all_goals decide +kernel

theorem witness_LayoutControl :
    (let s := tHolds (tState tWarp)
     let down : State := { s with linkUp := [false, true] }
     s.powerLatch = false ∧ (tState tWarp).laysemHeld = false ∧ s.laysemHeld = true ∧ s.laysemPort = .a ∧ portUp s s.laysemPort = true ∧
     s.linkLong.getD (portIx s.laysemPort) false = false ∧ (down.laysemPort ≠ .b ∧ portUp down down.laysemPort = false ∧ down.linkLong.length = 2)) ∧
    (let s := tHolds (tState tWarp)
     let open_ : Journal := { commit := true, gen := 1, applied := false }
     accepts s = true ∧ s.resetPending = false ∧ (clearWays s).isSome = true ∧ (1 + 5 * 2 ^ 32 : DWord).toNat % 16 = 1 ∧ layRefused s .a (1 + 5 * 2 ^ 32) = false ∧ layRefused s .a 1 = true ∧ s.layPhase = 0 ∧
     ({ s with layPhase := 1 }.layPhase = 1 ∧ { s with layPhase := 2 }.layPhase = 2 ∧ { s with layPhase := 3 }.layPhase = 3) ∧
     ((badItem s).isSome = true ∨ (badItem s).isNone = true) ∧
     { s with journal := some open_ }.journal = some open_ ∧ (open_.commit = true ∧ open_.applied = false) ∧
     { open_ with commit := false }.commit = false ∧ { open_ with applied := true }.applied = true ∧ s.journal = none ∧ sliceChanges s 0 = true ∧
     sliceChanges { s with stagedMap := s.granMap } 0 = false ∧ s.granMap.getD 0 0x1F ≠ s.stagedMap.getD 0 0x1F ∧
     s.granMap.getD 1 0x1F = s.stagedMap.getD 1 0x1F) := by
  refine ⟨?_, ?_⟩
  all_goals decide +kernel

theorem witness_TrustControl :
    (let s := tHolds (tState tWarp)
     fwRefused s .a (1 + 5 * 2 ^ 32) = false ∧ fwRefused s .b 1 = true ∧ exportRuns s = false ∧ s.pfSessions.length = 2 ∧
     exportRuns (putSlice s 0 { tSlice with slstat := 1, slcmd := 2 }) = true ∧ (1 + 5 * 2 ^ 32 : DWord).toNat % 16 = 1 ∧ (2 + 5 * 2 ^ 32 : DWord).toNat % 16 = 2 ∧
     { s with fwstat := 1 }.fwstat = 1 ∧ s.fwstat ≠ 1 ∧ 
     holds s .a = true ∧ (5 * 2 ^ 32 + 1 : DWord).toNat = s.laysemToken * 2 ^ 32 + 1 ∧ s.laysemToken < 2 ^ 32 ∧ s.dbgstat ≠ 1 ∧ s.layPhase ≠ 3 ∧
     portUp s .a = true ∧ { s with dbglen := 0 }.dbglen = 0 ∧ holds s .b = false) ∧
    (accepts (tState tWarp) = true ∧ vfEnabled (tState tWarp) 0 = true ∧
     (let x : Slice := { tSlice with session := some { id := 0, nonce := 1 }, tdi := .configLocked, measured := true }
      x.session ≠ none ∧ x.tdi = .configLocked ∧ { x with tdi := .configUnlocked }.tdi = .configUnlocked ∧ x.measured = true ∧ x.sweeping = false)) := by
  refine ⟨?_, ?_⟩
  all_goals decide +kernel


/-- A file of one portable image with a kernel at its first word: a VADD, a BRA and a SETW (12 R283, R284). -/
def tImage : List Byte :=
  natBytes 4 0x334F435A ++ natBytes 2 1 ++ natBytes 2 1 ++ natBytes 8 448 ++ natBytes 48 0 ++
  [1, 192 + 12 * 2 ^ 32, 0, 256 + 2 ^ 32, 0, 320 + 2 ^ 32, 384 + 2 ^ 32, 448 * 2 ^ 32].flatMap (natBytes 8) ++ natBytes 64 0 ++
  natBytes 4 0x02142810 ++ natBytes 4 0x9C000001 ++ natBytes 4 0xA4200006 ++ natBytes 52 0 ++
  natBytes 64 (0x30C00300 + 12 * 2 ^ 448) ++ natBytes 16 (2 ^ 62 + 8) ++ natBytes 112 0

/-- A slice with a session, whose routing entry 2 is empty and whose sealed image lies at 0x300000. -/
def tPeer : State :=
  let s := tState tWarp
  { s with slices := [(0, { tSlice with session := some { id := 0, nonce := 1 }, kgen := 7, xlsrc := 0x300000, xllen := 64 })] }

theorem witness_HostAndPeers_access :
    (let s := tPeer
     portUp s .a = true ∧ accepts s = true ∧ hostKeys s .a 0x300000 4 = some [0x300000, 0x300001, 0x300002, 0x300003] ∧
     hostKeys s .b 0x300000 4 = none ∧ isHbm 0x300000 = true ∧ sliceOfGranule s (0x300000 / 2 ^ 36) = some 0 ∧
     isPoisoned s 0x300000 = false ∧ isPoisoned { s with poison := [(0x300000, 0)] } 0x300000 = true) ∧
    (let s := tPeer
     vfEnabled s 0 = true ∧ keyTaken s 0 7 = true ∧ keyTaken s 0 6 = false ∧ okB (peerKey s 0 0x300000 .read) (fun r => r.1 == 0x300000 && (tfind r.2.poison 0x300000).isNone) = true ∧
     okB (peerKey s 0 0x300000 .write) (fun r => r.1 == 0x300000) = true ∧
     okB (peerKey s 0 0x300000 .atomic) (fun r => r.1 == 0x300000 && !isPoisoned r.2 r.1) = true ∧
     failKind (peerKey { s with mem := mwriteN s.mem 0x110008 (natBytes 8 (2 ^ 37 + 0x1F)) } 0 0x200000000 .read) = some 3 ∧
     (failKind (peerKey s 0 0x200000000 .read)).any (fun k => k != 3) = true) ∧
    (let x : L2Line := { world := 0, die := 0, way := 0, use := 0, keep := false, written := true, dirty := [] }
     let s : State := { tState tWarp with l2 := [(0, x), (256, x)] }
     Rising s.l2 ∧ WaysOk (tState tWarp) 0) := by
  refine ⟨?_, ?_, by unfold Rising; decide, by unfold Rising; decide, fun k x h => by cases h⟩
  all_goals decide +kernel

theorem witness_HostAndPeers_registers :
    (let s := tPeer
     let new : BitVec 128 := (5 * 2 ^ 92 &&& routeMask true) ||| (tget 0 (getSlice s 0).routing 2 &&& ~~~routeMask true)
     2 < 64 ∧ new.toNat / 2 ^ 120 % 2 ^ 8 = 0 ∧ (tget 0 (getSlice s 0).routing 2 &&& routeMask false) = (new &&& routeMask false) ∧
     (getSlice s 0).session ≠ none ∧ (getSlice (tState tWarp) 0).session = none) ∧
    (let s := tPeer
     let x := getSlice s 0
     x.xlstat ≠ 1 ∧ portUp s s.xcport = true ∧ 64 ≤ x.xllen.toNat ∧ x.xllen.toNat ≤ 2 ^ 28 ∧
     portableEntry (List.replicate 64 0) = none ∧ (portableEntry tImage).isSome = true ∧
     okB (olsanRead s 0 0x300000 64) (fun r => decide (r.1 = List.replicate 64 0)) = true ∧
     ((getSlice (tState tWarp) 0).xllen.toNat < 64) ∧ 15 < 16) := by
  refine ⟨?_, ?_⟩
  all_goals decide +kernel

theorem witness_HomesRegistersAndImages :
    -- a line that the slice's ways hold of host memory
    (let x : L2Line := { world := 0, die := 0, way := 0, use := 0, keep := false, written := true, dirty := [(2 ^ 51 + 5, 7)] }
     let s : State := { tState tWarp with l2 := [(2 ^ 51 + 0, x)] }
     l2Find s 0 (lineOf (2 ^ 51 + 5)) = some x ∧ reach s 0 (2 ^ 51) = .ok ∧ ownStack s 0 (2 ^ 51) = false) ∧
    (accepts tPeer = true ∧ vfEnabled tPeer 0 = true ∧ (0 : Nat) < 16 ∧ (getSlice tPeer 0).slstat < 16 ∧ (getCtx tPeer 0 0).state < 16) ∧
    someB (portableEntry tImage) (fun e =>
      imageWords tImage e == [(0, 0x02142810), (1, 0x9C000001), (2, 0xA4200006)] && branchOffset 0x9C000001 == some 1 &&
      0xA4200006 / 2 ^ 25 % 2 ^ 7 == 0x52 && kernelCount e == 1 && (descReloc (relocsOf tImage e) 0 1).isSome &&
      tooWide 0x2C0C2057 (grantsAt tImage e 2) && grantsAt tImage e 3 == []) = true := by
  refine ⟨?_, ?_, ?_⟩
  all_goals decide +kernel

theorem witness_ControlFormsComplete :
    (let u : Warp := { tWarp with path := 0x4, v := tv 8 0x2000 [] }
     OnTurn tStored tWarp ∧ OnTurn (tState u) u ∧ poisonedTable tWarp [] (guardRegA none) = false ∧
     Readable u (activeA u none) 0 [8, 9, 10, 11] [] [8, 9, 10, 11] [] (guardRegA none) ∧ u.det = false ∧
     (readLane u 9 2).toNat * 2 ^ 32 + (readLane u 8 2).toNat = 0x2000 ∧ canonical (0x2000 : DWord) = true ∧
     StoresCanLand tStored 0 0 ∧ (getCore (tState u) 0).bins.length + countLanes u.path ≤ 16 ∧
     poisonedTable tWarp [4] [] = false ∧ specialAccepts 0x010 (readS tWarp 4) = true) ∧
    (let s := putSlice (tState tWarp) 0 { tSlice with s2busy := true, evhead := 64 }
     accepts s = true ∧ vfEnabled s 0 = true ∧ (getSlice s 0).s1inv = none ∧ (getCtx s 0 5).state = 0 ∧
     (getCtx (tQuiet { tCtx with state := 3 }) 0 0).state = 3 ∧ ((getSlice s 0).evhead - 0).toNat ≤ 64 ∧ (getSlice s 0).s2busy = true ∧
     (getSlice (putSlice s 0 { tSlice with s1inv := some 3 }) 0).s1inv = some 3) := by
  refine ⟨⟨⟨by decide +kernel, by decide⟩, tTurn _ (by decide), by decide, ?_, by decide, by decide, by decide, tLands, by decide +kernel,
    by decide, by decide⟩, by decide +kernel⟩
  unfold Readable
  decide

/-- Core 0's warp at some words of code at 0x1000. -/
def tCoded (ws : List Nat) : State := { tState tWarp with mem := mwriteN tPages 0x1000 (ws.flatMap wordBytes) }

theorem witness_StepRunsDecoded :
    (let s := tCoded [0x1B0C2052]
     let w := ensurePath tWarp
     (s.agenda = [] ∧ nextMove s = none ∧ nextWarp s = some (0, 0)) ∧ poisonedPc w = 0 ∧ { s with agenda := [.warp 0 0] }.agenda = [.warp 0 0] ∧ getWarp s 0 0 = some tWarp ∧
     warpCanRun s 0 tWarp = true ∧ yieldDue w = false ∧ tWarp.qpend = false ∧ tWarp.regrant = false ∧ tWarp.pendThr = [] ∧ tWarp.stepDue = false ∧
     okB (translate (dispatchHead { s := { putWarp s 0 0 w with cur := (0, 0) }, core := 0, slot := 0, w := w, t := tTeam }).s (fetchUnit 0) 0 0 (pathPc w) .fetch)
       (fun r => r.1 == 0x1000 && !isPoisoned r.2 r.1 && decide (reach r.2 0 r.1 = .ok) && bytesNat (freshBytes r.2 0 r.1 4) == 0x1B0C2052) = true ∧
     needsSecond 0x1B0C2052 = false ∧ okB (decode 0x1B0C2052 0) (fun _ => true) = true) ∧
    (okB (translate { tCoded [0x3, 0x1B0C2052] with cur := (0, 0) } (fetchUnit 0) 0 0 0x1004 .fetch) (fun r =>
       r.1 == 0x1004 && !isPoisoned r.2 r.1 && decide (reach r.2 0 r.1 = .ok)) = true) ∧
    okB (decode 0x7F 0) (fun _ => true) = false ∧
    -- the events that are due; and a path that is poisoned, or whose instruction cannot be fetched, waits for a port, or is poisoned
    (let own := fun (w : Warp) => decide (getWarp (tState w) 0 0 = some w) && warpCanRun (tState w) 0 w && !yieldDue (ensurePath w)
     let fetch := fun (s : State) => translate s (fetchUnit 0) 0 0 0x1000 .fetch
     let far : State := { tState tWarp with linkUp := [false, false], mem := mwriteN (mwriteN tPages 0x110008 (natBytes 8 (2 ^ 51 + 0x1F))) 0x130000 (natBytes 8 (2 ^ 33 + 0x0F)) }
     own { tWarp with qpend := true } = true ∧ own { tWarp with regrant := true } = true ∧ own { tWarp with pendThr := [7] } = true ∧
     own { tWarp with stepDue := true } = true ∧ hasQuiesce tTeam = false ∧ hasQuiesce { tTeam with header := 2 ^ 20, quiesceVa := 0x9000 } = true ∧ (7 : Nat) < 8 ∧
     poisonedPc { tWarp with wtPoison := [pcWord 3] } ≠ 0 ∧
     (failKind (fetch { tState tWarp with mem := [] })).any (fun k => decide (k ≤ 6)) = true ∧
     (match fetch { tState tWarp with poison := [(0x130000, 0)] } with
      | .error (.poison _) => true
      | .error _ => false
      | .ok _ => false) = true ∧
     okB (fetch { tState tWarp with poison := [(0x1000, 0)] }) (fun r => isPoisoned r.2 r.1) = true ∧
     okB (fetch far) (fun r => !isPoisoned r.2 r.1 && decide (reach r.2 0 r.1 = .waits)) = true ∧
     isWait (fetch { far with slices := [(0, { tSlice with ctxs := [(0, { tCtx with s1root := 0x200000000 })] })] }) = true) := by
  refine ⟨?_, ?_, ?_, ?_⟩
  all_goals decide +kernel

theorem test_step_runs_code : (match step (tCoded [0x1B0C2052]) with
    | .next t => (getWarp t 0 0).map (fun w => w.pcs.headD 0)
    | .fault _ => none
    | .refused _ => none) = some 0x1004 := by decide +kernel

theorem witness_DecodeEncode : (Instr.vcmp none 2 3 4 5 2).hasWords = true ∧ wellFormed (.vcmp none 2 3 4 5 2) = true ∧
    (Instr.vfadd (some tPre) 1 2 3).hasWords = true ∧ wellFormed (.vfadd (some tPre) 1 2 3) = true := by decide +kernel

theorem witness_InvariantKept : Memory.wf (tCoded [0x1B0C2052]).mem = true ∧ (∀ e, e ∈ (tCoded [0x1B0C2052]).tlb → e.size % 2 ^ 16 = 0 ∧ e.out % 2 ^ 16 = 0) ∧
    (match step (tCoded [0x1B0C2052]) with
      | .next _ => true
      | .fault _ => false
      | .refused _ => false) = true := by decide +kernel

theorem witness_StepsGoOn : ∀ t rest, [Turn.warp 0 0, .evict 0 1, .dropTlb 3, .event .coldReset] = t :: rest → turnOk t = true := by
  intro t rest h
  cases h
  rfl

/-- SHAKE256 of no bytes and of a message of two blocks (log 17); the digests are hashlib's. -/
theorem test_shake_empty : shake256 [] =
    0xbec4b7b3ac2e294086b49a47491c82fcf692b5679d0105cb00f2c0d8ddc45dd72f76d56e64270cb5821bb862ea52cd3f24eb3e74eb3f3b23138da80b2bddb946 := by
  decide +kernel

theorem test_shake_blocks : shake256 ((List.range 200).map (BitVec.ofNat 8)) =
    0xfaec5a1ddb8ca98bc173f6b71ae222a0e566f4e741a8644936947a45bd7fa0e35e7ab0afb59c9ebab18739bbe4c59f3b827f969ac7e1b1bfd3052b2703cae14e := by
  decide +kernel

end Sys2Proof.Machine
end

section
/-!
Traps and faults that a warp's own instruction takes (10 R220, R224, R226, R229, R230): what `takeFault` and `takeTrap` leave of the
state, said once, and the instructions that take them.
-/
namespace Sys2Proof.Machine

/-- The warp that holds the turn, with its place and its team, as a meaning is given it. -/
def turnCx (s : State) (w : Warp) : Cx := { s := s, core := s.cur.1, slot := s.cur.2, w := w, t := getTeam s s.cur.1 w.team }

theorem withCx_turnCx {s : State} {w : Warp} (h : OnTurn s w) (k : Cx → Out) : withCx s k = k (turnCx s w) := withCx_onTurn h k

/-- The fields of a cause word that fit are not cut (10 R221). -/
theorem causeWord_of_lt {sub info : Nat} (hs : sub < 2 ^ 16) (hi : info < 2 ^ 16) (code : Nat) (fault converted : Bool) :
    causeWord code sub info fault converted =
      BitVec.ofNat 64 (code + sub * 2 ^ 16 + info * 2 ^ 32 + converted.toNat * 2 ^ 62 + fault.toNat * 2 ^ 63) := by
  rw [causeWord, Nat.mod_eq_of_lt hs, Nat.mod_eq_of_lt hi]

/-- The cause word of a trap that is no fault (10 R221). -/
theorem causeWord_of_trap {info : Nat} (hi : info < 2 ^ 16) (code : Nat) :
    causeWord code 0 info false false = BitVec.ofNat 64 (code + info * 2 ^ 32) := by
  have fields : code + 0 * 2 ^ 16 + info * 2 ^ 32 + 0 * 2 ^ 62 + 0 * 2 ^ 63 = code + info * 2 ^ 32 := by omega
  rw [causeWord_of_lt (Nat.two_pow_pos 16) hi, Bool.toNat_false, fields]

theorem raiseStop_of_some {s : State} {sl ctx : Nat} {st : Stop} (h : (getCtx s sl ctx).stop = some st) (cause : DWord) :
    raiseStop s sl ctx cause = s := by
  simp only [raiseStop, h]

theorem raiseStop_of_none {s : State} {sl ctx : Nat} (h : (getCtx s sl ctx).stop = none) (cause : DWord) :
    raiseStop s sl ctx cause = putCtx s sl ctx { getCtx s sl ctx with
      stop := some { cause := cause, units := servingUnits s sl ctx, closed := false } } := by
  simp only [raiseStop, h]

@[simp] theorem getWarp_raiseStop (s : State) (sl ctx : Nat) (cause : DWord) (n k : Nat) :
    getWarp (raiseStop s sl ctx cause) n k = getWarp s n k := by
  cases h : (getCtx s sl ctx).stop with
  | none => rw [raiseStop_of_none h, getWarp_putCtx]
  | some st => rw [raiseStop_of_some h]

@[simp] theorem raiseStop_mem (s : State) (sl ctx : Nat) (cause : DWord) : (raiseStop s sl ctx cause).mem = s.mem := by
  cases h : (getCtx s sl ctx).stop with
  | none => rw [raiseStop_of_none h]; rfl
  | some st => rw [raiseStop_of_some h]

/-- The stop line is up once raised, with the new cause if none came before (10 R230). -/
theorem stop_raiseStop (s : State) (sl ctx : Nat) (cause : DWord) :
    ∃ st, (getCtx (raiseStop s sl ctx cause) sl ctx).stop = some st ∧ ((getCtx s sl ctx).stop.isNone = true → st.cause = cause) := by
  cases h : (getCtx s sl ctx).stop with
  | none => exact ⟨_, by rw [raiseStop_of_none h, getCtx_putCtx_same], fun _ => rfl⟩
  | some st => exact ⟨st, by rw [raiseStop_of_some h, h], fun none => absurd none Bool.false_ne_true⟩

/-- The warp that a fault leaves (03 R47; 10 R230): its record written, and stopped where it is, with its instruction's number. -/
def faultedWarp (w : Warp) (code dispatches : Nat) (cause addr : DWord) (lanes : LaneMask) : Warp :=
  { recordTrap w (pathPc w) cause addr lanes with
    faulted := true, dispatch := some (w.dispatch.getD dispatches), doublePc := if code = 0x29 then w.trapPc else 0 }

@[simp] theorem sansTrap_faultedWarp (w : Warp) (code dispatches : Nat) (cause addr : DWord) (lanes : LaneMask) :
    (faultedWarp w code dispatches cause addr lanes).sansTrap = w.sansTrap := by
  simp only [Warp.sansTrap, faultedWarp, recordTrap]

/-- A fault with no stage-2 address puts the faulted warp back and raises its context's stop line (10 R220, R230). -/
theorem takeFault_turnCx (s : State) (w : Warp) (code sub info : Nat) (converted : Bool) (lanes : LaneMask) (addr : DWord) :
    takeFault (turnCx s w) code sub info converted lanes addr none =
      .next (raiseStop (putWarp s s.cur.1 s.cur.2 (faultedWarp w code (getCore s s.cur.1).dispatches
        (causeWord code sub info true converted) addr lanes)) w.slice w.ctx (causeWord code sub info true converted)) := rfl

/-- The turn's warp put back faulted, with its context's stop line raised, has faulted (10 R220, R230). -/
theorem faultedWarp_faulted (s : State) (w : Warp) {cause : DWord} {code sub info : Nat} {converted : Bool} (dispatches : Nat)
    (lanes : LaneMask) (addr : DWord)
    (hc : cause = BitVec.ofNat 64 (code + sub * 2 ^ 16 + info * 2 ^ 32 + converted.toNat * 2 ^ 62 + 2 ^ 63)) :
    Faulted s (raiseStop (putWarp s s.cur.1 s.cur.2 (faultedWarp w code dispatches cause addr lanes)) w.slice w.ctx cause)
      w code sub info converted lanes addr := by
  refine ⟨faultedWarp w code dispatches cause addr lanes, ?own, rfl, rfl, hc, rfl, rfl, sansTrap_faultedWarp .., ?others, ?memory,
    stop_raiseStop ..⟩
  case own => rw [getWarp_raiseStop, getWarp_putWarp_same]
  case others =>
    intro k hk
    rw [getWarp_raiseStop, getWarp_putWarp_slot s _ _ hk]
  case memory =>
    intro a
    rw [raiseStop_mem, putWarp_mem]

/-- A fault of the turn's warp with no stage-2 address (10 R220, R230). -/
theorem takeFault_faulted (s : State) (w : Warp) {sub info : Nat} (hs : sub < 2 ^ 16) (hi : info < 2 ^ 16) (code : Nat)
    (converted : Bool) (lanes : LaneMask) (addr : DWord) :
    ∃ t, takeFault (turnCx s w) code sub info converted lanes addr none = .next t ∧
      Faulted s t w code sub info converted lanes addr := by
  refine ⟨_, takeFault_turnCx s w code sub info converted lanes addr, faultedWarp_faulted s w _ lanes addr ?_⟩
  rw [causeWord_of_lt hs hi, Bool.toNat_true, Nat.one_mul]

/-- The poisoned words of a warp whose lanes' PCs were written whatever they held (03 R54). -/
theorem mem_wtPoison_cleanPcs (w : Warp) (m : LaneMask) (k : Nat) :
    k ∈ (cleanPcs w m).wtPoison ↔
      k ∈ w.wtPoison ∧ ¬∃ l, l < 64 ∧ m.getLsbD l = true ∧ (k = pcWord l ∨ k = pcWord l + 1) := by
  simp [cleanPcs]

theorem mem_wtPoison_enterHandler (w : Warp) (pc cause : DWord) (lanes path : LaneMask) (handler : DWord) (k : Nat) :
    k ∈ (enterHandler w pc cause lanes path handler).wtPoison ↔
      k ∈ w.wtPoison ∧ ¬∃ l, l < 64 ∧ path.getLsbD l = true ∧ (k = pcWord l ∨ k = pcWord l + 1) := by
  rw [← mem_wtPoison_cleanPcs]
  rfl

theorem pcOf_enterHandler (w : Warp) (pc cause : DWord) (lanes path : LaneMask) (handler : DWord) {l : Nat} (h : l < 64) :
    pcOf (enterHandler w pc cause lanes path handler) l = if path.getLsbD l then handler else pcOf w l := by
  rw [enterHandler, pcOf_setPcs _ _ _ h]
  rfl

/-- Entering a handler with the whole path changes trap registers, PCs and their poison alone (10 R224). -/
theorem sansTrap_enterHandler (w : Warp) (pc cause : DWord) (lanes : LaneMask) (handler : DWord) :
    { (enterHandler w pc cause lanes w.path handler).sansTrap with pcs := [], wtPoison := [] } =
      { w.sansTrap with pcs := [], wtPoison := [] } := by
  simp only [Warp.sansTrap, enterHandler, setPcs, cleanPcs, recordTrap]

/-- The turn's warp in its handler has trapped (10 R224). -/
theorem enterHandler_trapped (s : State) (w : Warp) {cause : DWord} {code info : Nat} (lanes : LaneMask) (handler : DWord)
    (hc : cause = BitVec.ofNat 64 (code + info * 2 ^ 32)) :
    Trapped s (putWarp s s.cur.1 s.cur.2 (enterHandler w (pathPc w) cause lanes w.path handler)) w code info lanes handler :=
  ⟨enterHandler w (pathPc w) cause lanes w.path handler, rfl, rfl, hc, rfl, rfl, rfl, rfl, rfl,
    fun _ hl => pcOf_enterHandler _ _ _ _ _ _ hl, fun _ => mem_wtPoison_enterHandler .., sansTrap_enterHandler ..⟩

/-- What a trap of an instruction comes to (10 R224, R226, R229): the handler, under TM a double trap, and with no handler a fault
converted from it. -/
def TrapsByMode (i : Instr) (s : State) (w : Warp) (code info : Nat) (lanes : LaneMask) : Prop :=
  (w.tm = false → w.trapBase ≠ 0 → TakesTrap i s w code info lanes) ∧
  (w.tm = true → TakesFault i s w 0x29 0 code false lanes 0) ∧
  (w.tm = false → w.trapBase = 0 → TakesFault i s w code 0 info true lanes 0)

/-- The three ways of a trap that does nothing beside (10 R224, R226, R229). -/
theorem takeTrap_turnCx {s : State} {w : Warp} (h : OnTurn s w) (code info : Nat) (lanes : LaneMask) :
    takeTrap (turnCx s w) code info lanes id =
      if w.tm then takeFault (turnCx s w) 0x29 0 code false lanes 0 none
      else if w.trapBase = 0 then takeFault (turnCx s w) code 0 info true lanes 0 none
      else .next (putWarp s s.cur.1 s.cur.2
        (enterHandler w (pathPc w) (causeWord code 0 info false false) lanes w.path w.trapBase)) := by
  simp only [takeTrap, turnCx, id, h.1, Option.getD_some]

/-- An instruction of the turn's warp that answers a trap takes it as the warp's mode says. -/
theorem trapsByMode_of_exec {i : Instr} {s : State} {w : Warp} {code info : Nat} {lanes : LaneMask} (h : OnTurn s w)
    (hc : code < 2 ^ 16) (hi : info < 2 ^ 16) (e : exec i s = takeTrap (turnCx s w) code info lanes id) :
    TrapsByMode i s w code info lanes := by
  rw [takeTrap_turnCx h] at e
  refine ⟨fun tm base => ?handler, fun tm => ?double, fun tm base => ?converted⟩
  case handler =>
    rw [tm, if_neg Bool.false_ne_true, if_neg base] at e
    exact ⟨_, e, enterHandler_trapped s w lanes w.trapBase (causeWord_of_trap hi code)⟩
  case double =>
    rw [tm, if_pos rfl] at e
    rw [TakesFault, e]
    exact takeFault_faulted s w (by decide) hc 0x29 false lanes 0
  case converted =>
    rw [tm, if_neg Bool.false_ne_true, if_pos base] at e
    rw [TakesFault, e]
    exact takeFault_faulted s w (by decide) hi code true lanes 0

/-- A cross-lane instruction whose register fields are legal traps where its segment is wider than the grant, whatever its words hold
(02 R34; log 29). -/
theorem crossOp_eq_takeTrap {s : State} {w : Warp} (h : OnTurn s w) (q : Option APre) {seg S : Nat} {groups : Nat → List (Nat × Nat)}
    (imm : Nat) (srcV srcS srcP : List Nat) (k : Cx → Nat → Out) (width : segWidth w (getTeam s s.cur.1 w.team) seg = S)
    (wide : w.grant < S) (legal : (groups S).all (fun g => groupOk w g.1 g.2) = true) :
    crossOp q seg groups imm srcV srcS srcP k s = takeTrap (turnCx s w) 5 S (activeA w q) id := by
  rw [crossOp, withCx_turnCx h]
  simp only [turnCx, width, legal, wide, Bool.not_true, Bool.false_eq_true, if_false, if_true]

/-- The width trap of an instruction that is a cross-lane operation (02 R34). -/
theorem widthTrap_trapsByMode {i : Instr} {s : State} {w : Warp} {q : Option APre} {seg S imm : Nat} {groups : Nat → List (Nat × Nat)}
    {srcV srcS srcP : List Nat} {k : Cx → Nat → Out} (h : OnTurn s w) (e : exec i s = crossOp q seg groups imm srcV srcS srcP k s)
    (width : segWidth w (getTeam s s.cur.1 w.team) seg = S) (wide : w.grant < S) (small : S ≤ 64)
    (legal : (groups S).all (fun g => groupOk w g.1 g.2) = true) : TrapsByMode i s w 5 S (activeA w q) :=
  trapsByMode_of_exec h (by decide) (by omega) (e.trans (crossOp_eq_takeTrap h q imm srcV srcS srcP k width wide legal))

theorem exec_shfl (q : Option APre) (d a b : BitVec 7) (g m : BitVec 2) (s : State) :
    exec (.shfl q d a b g m) s = execShfl q d a b g m s := rfl

theorem exec_bcast (q : Option APre) (d a i : BitVec 7) (g : BitVec 2) (s : State) :
    exec (.bcast q d a i g) s = execBcast q d a i g s := rfl

theorem exec_vred (q : Option APre) (d a : BitVec 7) (g m : BitVec 2) (s : State) :
    exec (.vred q d a g m) s = execVred q d a g m s := rfl

theorem exec_vscan (q : Option APre) (d a : BitVec 7) (g m : BitVec 2) (s : State) :
    exec (.vscan q d a g m) s = execVscan q d a g m s := rfl

theorem exec_vote (q : Option APre) (d : BitVec 7) (p : BitVec 5) (g m : BitVec 2) (s : State) :
    exec (.vote q d p g m) s = execVote q d p g m s := rfl

/-- The destination of VOTE lies in the allotment (03 R55; 16 R405): a pair at an even register for a ballot over 64 lanes. -/
theorem voteGroup_legal {w : Warp} {d S : Nat} {m : BitVec 2} (hd : d < w.areg)
    (pair : m ≠ 0 ∨ S ≠ 64 ∨ (d % 2 = 0 ∧ d + 1 < w.areg)) :
    groupOk w d (if m = 0 ∧ S = 64 then 2 else 1) = true := by
  split
  case isTrue ballot =>
    obtain ⟨hm, hS⟩ := ballot
    obtain ⟨even, below⟩ := (pair.resolve_left (not_not_intro hm)).resolve_left (not_not_intro hS)
    simp only [groupOk, even, beq_self_eq_true, Bool.true_and, decide_eq_true_eq]
    omega
  case isFalse => exact groupOk_one w hd

/-- The word of TRAP (14 R357). -/
theorem decodeWords_trap (c : BitVec 13) : decodeWords [2 ^ 31 + 0x16 * 2 ^ 25 + c.toNat] = .ok (.trap c) := by
  generalize hx : 2 ^ 31 + 0x16 * 2 ^ 25 + c.toNat = x
  have top : fld x 31 1 = 1 := by unfold fld; omega
  have major : fld x 25 6 = 22 := by unfold fld; omega
  have zeros : fld x 13 12 = 0 := by unfold fld; omega
  have code : bfld x 0 13 = c := by
    refine BitVec.eq_of_toNat_eq ?_
    rw [bfld, BitVec.toNat_ofNat]
    omega
  rw [decodeWords, decode, if_pos top, decodeUniform, major]
  show decodeTrap x = _
  rw [decodeTrap, if_pos zeros, code]

/-- The word of BKPT (13 R312). -/
theorem decodeWords_bkpt : decodeWords [0xB0000000] = .ok .bkpt := rfl

/-- TRAP takes its trap with its code as INFO (14 R357). -/
theorem trap_trapsByMode {s : State} {w : Warp} (h : OnTurn s w) (c : BitVec 13) : TrapsByMode (.trap c) s w 1 c.toNat w.path :=
  trapsByMode_of_exec h (by decide) (by omega) (withCx_turnCx h (fun x => takeTrap x 1 c.toNat x.w.path id))

/-- BKPT takes its trap (13 R312). -/
theorem bkpt_trapsByMode {s : State} {w : Warp} (h : OnTurn s w) : TrapsByMode .bkpt s w 2 0 w.path :=
  trapsByMode_of_exec h (by decide) (by decide) (withCx_turnCx h (fun x => takeTrap x 2 0 x.w.path id))

/-- Settles O15: every trap is `takeTrap` of the turn's warp, which a cross-lane instruction reaches before it reads a word. -/
theorem trapsTaken : Obligations.TrapsTaken := by
  intro s w c q d a b i p g m h takes S
  refine ⟨decodeWords_trap c, trap_trapsByMode h c, decodeWords_bkpt, bkpt_trapsByMode h, fun wide small hd ha hb => ?_⟩
  have pair_da : [(d.toNat, 1), (a.toNat, 1)].all (fun g => groupOk w g.1 g.2) = true :=
    groups_readable (rs := [d.toNat, a.toNat]) (by simp [hd, ha])
  have triple_dab : [(d.toNat, 1), (a.toNat, 1), (b.toNat, 1)].all (fun g => groupOk w g.1 g.2) = true :=
    groups_readable (rs := [d.toNat, a.toNat, b.toNat]) (by simp [hd, ha, hb])
  exact ⟨widthTrap_trapsByMode h (exec_shfl q d a b g m s) rfl wide small triple_dab,
    widthTrap_trapsByMode h (exec_vred q d a g m s) rfl wide small pair_da,
    widthTrap_trapsByMode h (exec_vscan q d a g m s) rfl wide small pair_da,
    widthTrap_trapsByMode h (exec_bcast q d a i g s) rfl wide small pair_da,
    fun pair => widthTrap_trapsByMode h (exec_vote q d p g m s) rfl wide small (by simpa using voteGroup_legal hd pair)⟩

end Sys2Proof.Machine
end

section
/-!
Comparisons, predicate logic and election (13 R321; 14 R340; 15 R382, R383): the words of the three instructions, bare and guarded,
and what they write.
-/
namespace Sys2Proof.Machine

/-- A field read from a word, from its value. -/
theorem bfld_eq {w lo n : Nat} {v : BitVec n} (h : w / 2 ^ lo % 2 ^ n = v.toNat) : bfld w lo n = v :=
  BitVec.eq_of_toNat_eq (by rw [bfld, BitVec.toNat_ofNat, h])

/-- The word that `guardedWords` puts before an instruction's own (04 R74). -/
def aprefixWord (p : APre) : Nat :=
  0x3F * 2 ^ 25 + p.guard.toNat * 2 ^ 19 + p.neg.toNat * 2 ^ 18 + p.zero.toNat * 2 ^ 17 + p.rnd.toNat * 2 ^ 14 +
    p.sat.toNat * 2 ^ 12 + p.vc.toNat * 2 ^ 5

theorem guardedWords_some (p : APre) (w : Nat) : guardedWords (some p) w = [aprefixWord p, w] := rfl

theorem boolToNat_beq_one (b : Bool) : (b.toNat == 1) = b := by cases b <;> rfl

/-- `readAPre` reads back the fields that `aprefixWord` places, whose kind is arithmetic (04 R74). -/
theorem aprefixWord_fields (p : APre) :
    readAPre (aprefixWord p) = p ∧ ¬fld (aprefixWord p) 31 1 = 1 ∧ isPrefixWord (aprefixWord p) = true ∧
      fld (aprefixWord p) 24 1 = 0 ∧ fld (aprefixWord p) 14 3 = p.rnd.toNat ∧ fld (aprefixWord p) 12 2 = p.sat.toNat ∧
      fld (aprefixWord p) 0 5 = 0 := by
  have hn := p.neg.toNat_le
  have hz := p.zero.toNat_le
  generalize hx : aprefixWord _ = x
  unfold aprefixWord at hx
  have negated : fld x 18 1 = p.neg.toNat := by unfold fld; omega
  have zeroing : fld x 17 1 = p.zero.toNat := by unfold fld; omega
  have major : fld x 25 7 = 0x3F := by unfold fld; omega
  refine ⟨?fields, ?vector, ?isPrefix, ?kind, ?rounding, ?saturation, ?low⟩
  case fields =>
    rw [readAPre, negated, zeroing, boolToNat_beq_one, boolToNat_beq_one, bfld_eq (v := p.guard) (by omega), bfld_eq (v := p.rnd) (by omega),
      bfld_eq (v := p.sat) (by omega), bfld_eq (v := p.vc) (by omega)]
  case isPrefix => rw [isPrefixWord, major]; rfl
  all_goals unfold fld; omega

/-- A vector word whose major takes guard and zeroing alone decodes, with these before it or without, as `decodeVector` reads it
(04 R75, R76). -/
theorem decodeWords_guarded {q : Option APre} (hq : usesGuard q) {w m : Nat} (hw : fld w 25 7 = m) (hm : m < 0x3F)
    (mayUse : majorUse w = some .gz) (uses : arithUse w = some .gz) : decodeWords (guardedWords q w) = decodeVector q none w := by
  have not_uniform : ¬fld w 31 1 = 1 := by unfold fld at *; omega
  have not_prefix : ¬isPrefixWord w = true := by rw [isPrefixWord, hw, beq_iff_eq]; omega
  cases q with
  | none => rw [guardedWords, decodeWords, decode, if_neg not_uniform, if_neg not_prefix]
  | some p =>
    obtain ⟨rnd, sat, vc⟩ := hq p rfl
    obtain ⟨fields, vector, isPrefix, kind, rounding, saturation, low⟩ := aprefixWord_fields p
    have unused : ¬unusedArith .gz p = true := by simp [unusedArith, PreUse.hasZ, rnd, sat, vc]
    have not_reserved : ¬prefixReserved (aprefixWord p) = true := by
      simp [prefixReserved, kind, rounding, saturation, low, rnd, sat]
    have not_unused : ¬prefixUnused (aprefixWord p) w = true := by
      rw [prefixUnused, if_pos kind, mayUse, fields, Option.any_some]
      exact unused
    rw [guardedWords_some, decodeWords, decode, if_neg vector, if_pos isPrefix, decodePrefixed, if_neg not_reserved,
      if_neg not_uniform, if_neg not_prefix, if_neg not_unused, if_pos kind, fields]
    cases decodeVector (some p) none w with
    | error e => rfl
    | ok i => simp only [uses, if_neg unused]

/-- The word of VCMP (15 R382). -/
def vcmpWord (y : BitVec 2) (d : BitVec 5) (a b : BitVec 7) (k : BitVec 4) : Nat :=
  0x0D * 2 ^ 25 + y.toNat * 2 ^ 23 + d.toNat * 2 ^ 18 + a.toNat * 2 ^ 11 + b.toNat * 2 ^ 4 + k.toNat

/-- The type and the condition of a comparison are legal (15 R382): .unord and .ord compare FP32 alone. -/
def VcmpLegal (y : BitVec 2) (k : BitVec 4) : Prop := y ≠ 3 ∧ k.toNat < 8 ∧ (y = 2 ∨ k.toNat < 6)

theorem vcmpLegal_iff (y : BitVec 2) (k : BitVec 4) :
    VcmpLegal y k ↔ y.toNat ≤ 2 ∧ k.toNat ≤ 7 ∧ (6 ≤ k.toNat → y.toNat = 2) := by
  have three : y = 3 ↔ y.toNat = 3 := BitVec.toNat_inj.symm
  have two : y = 2 ↔ y.toNat = 2 := BitVec.toNat_inj.symm
  rw [VcmpLegal, ne_eq, three, two]
  omega

/-- VCMP's word, bare or guarded, is read by VCMP's major (04 R79). -/
theorem decodeWords_vcmpWord {q : Option APre} (hq : usesGuard q) (y : BitVec 2) (d : BitVec 5) (a b : BitVec 7) (k : BitVec 4) :
    decodeWords (guardedWords q (vcmpWord y d a b k)) = decodeVcmp q (vcmpWord y d a b k) := by
  have major : fld (vcmpWord y d a b k) 25 7 = 13 := by unfold fld vcmpWord; omega
  have low : fld (vcmpWord y d a b k) 25 6 = 13 := by unfold fld vcmpWord; omega
  rw [decodeWords_guarded hq major (by decide) (by simp only [majorUse, arithUse, low]) (by simp only [arithUse, low])]
  simp only [decodeVector, low]

theorem decodeVcmp_vcmpWord (q : Option APre) (y : BitVec 2) (d : BitVec 5) (a b : BitVec 7) (k : BitVec 4) :
    (VcmpLegal y k → decodeVcmp q (vcmpWord y d a b k) = .ok (.vcmp q y d a b k)) ∧
      (¬VcmpLegal y k → decodeVcmp q (vcmpWord y d a b k) = .error .reservedField) := by
  have type : fld (vcmpWord y d a b k) 23 2 = y.toNat := by unfold fld vcmpWord; omega
  have cond : fld (vcmpWord y d a b k) 0 4 = k.toNat := by unfold fld vcmpWord; omega
  rw [decodeVcmp, type, cond, vcmpLegal_iff]
  refine ⟨fun legal => ?legal, fun illegal => if_neg illegal⟩
  rw [if_pos legal, vcmpWord, bfld_eq (v := y) (by omega), bfld_eq (v := d) (by omega), bfld_eq (v := a) (by omega),
    bfld_eq (v := b) (by omega), bfld_eq (v := k) (by omega)]

/-- A word of PLOG's major (13 R321; 14 R340). -/
def plogMajorWord (d : BitVec 5) (rest : Nat) : Nat := 0x10 * 2 ^ 25 + d.toNat * 2 ^ 20 + rest

theorem decodeWords_plogMajorWord {q : Option APre} (hq : usesGuard q) (d : BitVec 5) {rest : Nat} (hr : rest < 2 ^ 20) :
    decodeWords (guardedWords q (plogMajorWord d rest)) = decodePlog q (plogMajorWord d rest) := by
  have major : fld (plogMajorWord d rest) 25 7 = 16 := by unfold fld plogMajorWord; omega
  have low : fld (plogMajorWord d rest) 25 6 = 16 := by unfold fld plogMajorWord; omega
  rw [decodeWords_guarded hq major (by decide) (by simp only [majorUse, arithUse, low]) (by simp only [arithUse, low])]
  simp only [decodeVector, low]

theorem reads_plog {q : Option APre} (hq : usesGuard q) (d pa pb : BitVec 5) (t : BitVec 4) :
    Reads q (plogMajorWord d (pa.toNat * 2 ^ 15 + pb.toNat * 2 ^ 10 + t.toNat)) (.plog q d pa pb t) := by
  rw [Reads, decodeWords_plogMajorWord hq d (by omega)]
  generalize hx : plogMajorWord d _ = x
  unfold plogMajorWord at hx
  have op : fld x 4 6 = 0 := by unfold fld; omega
  simp only [decodePlog, op]
  rw [bfld_eq (v := d) (by omega), bfld_eq (v := pa) (by omega), bfld_eq (v := pb) (by omega), bfld_eq (v := t) (by omega)]

theorem reads_elect {q : Option APre} (hq : usesGuard q) (d : BitVec 5) : Reads q (plogMajorWord d (2 ^ 4)) (.elect q d) := by
  rw [Reads, decodeWords_plogMajorWord hq d (by decide)]
  generalize hx : plogMajorWord d _ = x
  unfold plogMajorWord at hx
  have op : fld x 4 6 = 1 := by unfold fld; omega
  have zeros : fld x 0 4 = 0 ∧ fld x 10 10 = 0 := by unfold fld; omega
  simp only [decodePlog, op]
  rw [if_pos zeros, bfld_eq (v := d) (by omega)]

/-- The words of VCMP, PLOG and ELECT (13 R321; 14 R340; 15 R382). -/
theorem predicateWords : Claims.PredicateWords := by
  intro q d a b pa pb t k y hq
  obtain ⟨legal, illegal⟩ := decodeVcmp_vcmpWord q y d a b k
  refine ⟨fun h => (decodeWords_vcmpWord hq y d a b k).trans (legal h),
    fun h => ⟨_, (decodeWords_vcmpWord hq y d a b k).trans (illegal h), rfl⟩, ?plog, reads_elect hq d⟩
  case plog =>
    have h := reads_plog hq d pa pb t
    rw [plogMajorWord, ← Nat.add_assoc, ← Nat.add_assoc] at h
    exact h

/-- The magnitude of an FP32 pattern that is no NaN in units of 2^-149 (05 R92). -/
def magnitude32 (m : Nat) : Nat :=
  if m / 2 ^ 23 = 0 then m % 2 ^ 23 else (2 ^ 23 + m % 2 ^ 23) * 2 ^ (m / 2 ^ 23 - 1)

/-- The next pattern has a greater magnitude: within a binade by its fraction, and past the binade's end by its exponent. -/
theorem magnitude32_lt_succ (m : Nat) : magnitude32 m < magnitude32 (m + 1) := by
  have pos : 0 < 2 ^ (m / 2 ^ 23 - 1) := Nat.two_pow_pos _
  by_cases carry : m % 2 ^ 23 = 2 ^ 23 - 1
  case neg =>
    have exponent : (m + 1) / 2 ^ 23 = m / 2 ^ 23 := by omega
    have fraction : (m + 1) % 2 ^ 23 = m % 2 ^ 23 + 1 := by omega
    rw [magnitude32, magnitude32, exponent, fraction]
    split
    · exact Nat.lt_succ_self _
    · exact Nat.mul_lt_mul_of_pos_right (Nat.lt_succ_self _) pos
  case pos =>
    have exponent : (m + 1) / 2 ^ 23 = m / 2 ^ 23 + 1 := by omega
    have fraction : (m + 1) % 2 ^ 23 = 0 := by omega
    rw [magnitude32, magnitude32, exponent, fraction, carry, if_neg (Nat.succ_ne_zero _), Nat.add_sub_cancel]
    split
    case isTrue subnormal => rw [subnormal]; decide
    case isFalse normal =>
      have binade : 2 ^ (m / 2 ^ 23) = 2 * 2 ^ (m / 2 ^ 23 - 1) := by
        rw [← Nat.pow_succ', Nat.succ_eq_add_one, Nat.sub_add_cancel (by omega)]
      rw [binade]
      omega

theorem magnitude32_lt_of_lt {m n : Nat} (h : m < n) : magnitude32 m < magnitude32 n := by
  induction h with
  | refl => exact magnitude32_lt_succ m
  | step _ ih => exact Nat.lt_trans ih (magnitude32_lt_succ _)

theorem magnitude32_lt_iff {m n : Nat} : magnitude32 m < magnitude32 n ↔ m < n := by
  refine ⟨fun h => Nat.lt_of_not_le fun le => ?_, magnitude32_lt_of_lt⟩
  rcases Nat.eq_or_lt_of_le le with eq | lt
  · exact absurd h (eq ▸ Nat.lt_irrefl _)
  · exact Nat.lt_asymm h (magnitude32_lt_of_lt lt)

theorem magnitude32_pos_iff {m : Nat} : 0 < magnitude32 m ↔ 0 < m := magnitude32_lt_iff (m := 0)

/-- An FP32 pattern's value is its magnitude with its sign (05 R92). -/
theorem orderOf32_eq (x : Word) : orderOf32 x =
    if 2 ^ 31 ≤ x.toNat then -(magnitude32 (x.toNat % 2 ^ 31) : Int) else magnitude32 (x.toNat % 2 ^ 31) := by
  have exponent : x.toNat / 2 ^ 23 % 2 ^ 8 = x.toNat % 2 ^ 31 / 2 ^ 23 := by omega
  have fraction : x.toNat % 2 ^ 23 = x.toNat % 2 ^ 31 % 2 ^ 23 := by omega
  rw [orderOf32, exponent, fraction, BitVec.msb_eq_decide]
  change (if decide _ = true then -(magnitude32 (x.toNat % 2 ^ 31) : Int) else magnitude32 (x.toNat % 2 ^ 31)) = _
  exact ite_congr decide_eq_true_eq (fun _ => rfl) fun _ => rfl

/-- The model's keys of FP32 patterns order as their values do, a zero of either sign being equal to the other (15 R383). -/
theorem valueKey_lt_iff (x y : Word) : valueKey x.toNat < valueKey y.toNat ↔ orderOf32 x < orderOf32 y := by
  have lt := @magnitude32_lt_iff (x.toNat % 2 ^ 31) (y.toNat % 2 ^ 31)
  have gt := @magnitude32_lt_iff (y.toNat % 2 ^ 31) (x.toNat % 2 ^ 31)
  have posX := @magnitude32_pos_iff (x.toNat % 2 ^ 31)
  have posY := @magnitude32_pos_iff (y.toNat % 2 ^ 31)
  rw [orderOf32_eq, orderOf32_eq, valueKey, valueKey]
  split <;> split <;> omega

/-- The model finds a NaN where the magnitude is beyond infinity's (05 R92). -/
theorem isNan_floatValue_f32 (n : Nat) : (floatValue .f32 n).isNan = decide (0x7F800000 < n % 2 ^ 31) := by
  change Num.isNan (if 0x7F800000 < n % 2 ^ 31 then .nan else if n % 2 ^ 31 = 0x7F800000 then .inf _
    else if n % 2 ^ 31 < 2 ^ 23 then .fin _ _ _ else .fin _ _ _) = _
  by_cases nan : 0x7F800000 < n % 2 ^ 31
  case pos => rw [if_pos nan, decide_eq_true nan, Num.isNan]
  case neg =>
    rw [if_neg nan, decide_eq_false nan]
    split
    · rfl
    · exact (apply_ite Num.isNan ..).trans (ite_self false)

theorem valueOf_f32_isNan (x : Word) : (valueOf .f32 x.toNat).isNan = isNan32 x := by
  have whole : x.toNat % 2 ^ 32 = x.toNat := Nat.mod_eq_of_lt x.isLt
  have value : valueOf .f32 x.toNat = floatValue .f32 x.toNat := congrArg (floatValue .f32) whole
  rw [value, isNan_floatValue_f32, isNan32]

theorem signedNat_toNat (x : Word) : signedNat 32 x.toNat = x.toInt := by
  rw [signedNat, BitVec.toInt_eq_toNat_cond]
  split <;> split <;> omega

/-- A condition of operands that are no NaNs holds of any keys in the operands' order (15 R382, R383). -/
theorem compareKeys_ordered {a b x y : Int} (lt : a < b ↔ x < y) (gt : b < a ↔ y < x) (k : Nat) :
    compareKeys k false a b = holdsOf k x y := by
  have eq : a = b ↔ x = y := by omega
  have le : a ≤ b ↔ x ≤ y := by omega
  have ge : b ≤ a ↔ y ≤ x := by omega
  match k with
  | 0 => exact decide_eq_decide.mpr eq
  | 1 =>
    change (!decide (a = b)) = decide (¬x = y)
    rw [decide_not, decide_eq_decide.mpr eq]
  | 2 => exact decide_eq_decide.mpr lt
  | 3 => exact decide_eq_decide.mpr le
  | 4 => exact decide_eq_decide.mpr gt
  | 5 => exact decide_eq_decide.mpr ge
  | 6 | _ + 7 => rfl

/-- A NaN makes ne and unord alone true (15 R383). -/
theorem compareKeys_nan (k : Nat) (a b : Int) : compareKeys k true a b = (k == 1 || k == 6) := by
  match k with
  | 0 | 1 | 2 | 3 | 4 | 5 | 6 | _ + 7 => rfl

/-- VCMP.i32 (15 R383). -/
theorem opCompare_i32 (k : Nat) (x y : Word) : opCompare 0 k x.toNat y.toNat = holdsOf k x.toInt y.toInt := by
  rw [opCompare, signedNat_toNat, signedNat_toNat]
  exact compareKeys_ordered Iff.rfl Iff.rfl k

/-- VCMP.n32 (15 R383). -/
theorem opCompare_n32 (k : Nat) (x y : Word) : opCompare 1 k x.toNat y.toNat = holdsOf k x.toNat y.toNat :=
  compareKeys_ordered Iff.rfl Iff.rfl k

/-- VCMP.f32 (15 R383). -/
theorem opCompare_f32 (k : BitVec 4) (x y : Word) : opCompare 2 k.toNat x.toNat y.toNat =
    if isNan32 x || isNan32 y then k == 1 || k == 6 else holdsOf k.toNat (orderOf32 x) (orderOf32 y) := by
  have codes : (k.toNat == 1 || k.toNat == 6) = (k == 1 || k == 6) := by revert k; decide
  simp only [opCompare, valueOf_f32_isNan]
  split
  case isTrue nan => rw [nan, compareKeys_nan, codes]
  case isFalse ordered =>
    rw [Bool.eq_false_iff.mpr ordered]
    exact compareKeys_ordered (valueKey_lt_iff x y) (valueKey_lt_iff y x) k.toNat

/-- A lane of a set is its lowest where no lane before it is in the set. -/
theorem lowest_beq_some {m : LaneMask} {l : Nat} (hl : m.getLsbD l = true) :
    (lowest m == some l) = (List.range l).all (fun j => !m.getLsbD j) := by
  have below : l < 64 := BitVec.lt_of_getLsbD hl
  rw [Bool.eq_iff_iff, beq_iff_eq, lowest, List.find?_range_eq_some, List.all_eq_true]
  simp [below, hl]

/-- What a written predicate holds depends on the results of its active lanes alone. -/
theorem WroteP.congr {w w' : Warp} {d : Nat} {act zeroed : LaneMask} {f g : Nat → Bool} (h : WroteP w w' d act zeroed f)
    (e : ∀ l, act.getLsbD l = true → f l = g l) : WroteP w w' d act zeroed g := by
  obtain ⟨written, others⟩ := h
  refine ⟨fun hd l hl present => (written hd l hl present).trans ?_, others⟩
  split
  case isTrue active => exact e l active
  case isFalse => rfl

/-- An instruction that is a predicate operation gives its predicate the operation's results in the active lanes. -/
theorem givesP_of_predicateOp {i : Instr} {s : State} {w : Warp} {q : Option APre} {d : BitVec 5} {srcV srcP : List Nat}
    {f : Cx → Nat → Bool} {g : Nat → Bool} (h : OnTurn s w) (e : exec i s = predicateOp q d.toNat srcV srcP f s)
    (r : Readable w (activeA w q) 0 srcV [] srcV [] (guardRegA q ++ keptPredicate w (activeA w q) (zeroedA w q) d.toNat ++ srcP))
    (results : ∀ l, (activeA w q).getLsbD l = true → f (turnCx s w) l = g l) : GivesP i s w q d g := by
  obtain ⟨t, w', next, own, frame, counted, slices, pending, moved, wrote⟩ := predicateOp_retires h q d.toNat srcV srcP f r
  exact ⟨t, w', e.trans next, own, frame, counted, slices, pending, moved, wrote.congr results⟩

theorem exec_vcmp (q : Option APre) (y : BitVec 2) (d : BitVec 5) (a b : BitVec 7) (k : BitVec 4) (s : State) :
    exec (.vcmp q y d a b k) s = execVcmp q y d a b k s := rfl

theorem exec_plog (q : Option APre) (d pa pb : BitVec 5) (t : BitVec 4) (s : State) :
    exec (.plog q d pa pb t) s = execPlog q d pa pb t s := rfl

theorem exec_elect (q : Option APre) (d : BitVec 5) (s : State) : exec (.elect q d) s = execElect q d s := rfl

/-- What VCMP, PLOG and ELECT write (13 R321; 14 R340; 15 R383). -/
theorem predicateResults : Claims.PredicateResults := by
  intro s w q d a b pa pb t k h
  refine ⟨fun ready _ => ⟨fun _ => ⟨?i32, ?n32⟩, ?f32⟩, fun ready => ?plog, fun ready => ?elect⟩
  case i32 => exact givesP_of_predicateOp h (exec_vcmp q 0 d a b k s) ready fun _ _ => opCompare_i32 ..
  case n32 => exact givesP_of_predicateOp h (exec_vcmp q 1 d a b k s) ready fun _ _ => opCompare_n32 ..
  case f32 => exact givesP_of_predicateOp h (exec_vcmp q 2 d a b k s) ready fun _ _ => opCompare_f32 ..
  case plog => exact givesP_of_predicateOp h (exec_plog q d pa pb t s) ready fun _ _ => rfl
  case elect =>
    rw [← List.append_nil (guardRegA q ++ _)] at ready
    exact givesP_of_predicateOp h (exec_elect q d s) ready fun _ active => lowest_beq_some active

/-- Settles O34: each word's fields are read back, and each instruction is a predicate operation whose results are the statement's in the
active lanes. -/
theorem predicates : Obligations.Predicates := ⟨predicateWords, predicateResults⟩

end Sys2Proof.Machine
end

section
/-!
Values of words over the integers (00 R2; 15 R361, R371): what the operations on words that the integer, logic, shift and bit-field
instructions share come to, at every width.
-/
namespace Sys2Proof.Machine

theorem ofNat_toNat_self {n : Nat} (x : BitVec n) : BitVec.ofNat n x.toNat = x := by rw [BitVec.ofNat_toNat, BitVec.setWidth_eq]

theorem sub_eq_ofInt {n : Nat} (x y : BitVec n) : x - y = BitVec.ofInt n (x.toNat - y.toNat : Int) := by
  rw [BitVec.sub_eq_add_neg, Int.sub_eq_add_neg, BitVec.ofInt_add, BitVec.ofInt_neg, BitVec.ofInt_natCast, BitVec.ofInt_natCast,
    ofNat_toNat_self, ofNat_toNat_self]

theorem mul_eq_ofNat {n : Nat} (x y : BitVec n) : x * y = BitVec.ofNat n (x.toNat * y.toNat) := by
  rw [BitVec.ofNat_mul, ofNat_toNat_self, ofNat_toNat_self]

theorem mul_add_eq_ofNat {n : Nat} (x y z : BitVec n) : x * y + z = BitVec.ofNat n (x.toNat * y.toNat + z.toNat) := by
  rw [BitVec.ofNat_add, ofNat_toNat_self, ← mul_eq_ofNat]

/-- An immediate is added as its signed value. -/
theorem add_signExtend {m n : Nat} (x : BitVec n) (i : BitVec m) : x + i.signExtend n = BitVec.ofInt n (x.toInt + i.toInt) := by
  rw [BitVec.ofInt_add, BitVec.ofInt_toInt, BitVec.signExtend]

theorem ite_slt_eq_min {n : Nat} (x y : BitVec n) : (if y.slt x then y else x) = BitVec.ofInt n (min x.toInt y.toInt) := by
  simp only [BitVec.slt_iff_toInt_lt]
  split
  case isTrue below => rw [Int.min_eq_right (Int.le_of_lt below), BitVec.ofInt_toInt]
  case isFalse above => rw [Int.min_eq_left (Int.not_lt.mp above), BitVec.ofInt_toInt]

theorem ite_slt_eq_max {n : Nat} (x y : BitVec n) : (if x.slt y then y else x) = BitVec.ofInt n (max x.toInt y.toInt) := by
  simp only [BitVec.slt_iff_toInt_lt]
  split
  case isTrue below => rw [Int.max_eq_right (Int.le_of_lt below), BitVec.ofInt_toInt]
  case isFalse above => rw [Int.max_eq_left (Int.not_lt.mp above), BitVec.ofInt_toInt]

theorem ite_ult_eq_min {n : Nat} (x y : BitVec n) : (if y.ult x then y else x) = BitVec.ofNat n (min x.toNat y.toNat) := by
  simp only [BitVec.ult_iff_toNat_lt]
  split
  case isTrue below => rw [Nat.min_eq_right (Nat.le_of_lt below), ofNat_toNat_self]
  case isFalse above => rw [Nat.min_eq_left (Nat.not_lt.mp above), ofNat_toNat_self]

theorem ite_ult_eq_max {n : Nat} (x y : BitVec n) : (if x.ult y then y else x) = BitVec.ofNat n (max x.toNat y.toNat) := by
  simp only [BitVec.ult_iff_toNat_lt]
  split
  case isTrue below => rw [Nat.max_eq_right (Nat.le_of_lt below), ofNat_toNat_self]
  case isFalse above => rw [Nat.max_eq_left (Nat.not_lt.mp above), ofNat_toNat_self]

/-- The magnitude of the most negative word is the word itself (15 R372). -/
theorem ite_slt_zero_eq_natAbs {n : Nat} (x : BitVec n) : (if x.slt 0 then 0 - x else x) = BitVec.ofNat n x.toInt.natAbs := by
  simp only [BitVec.slt_iff_toInt_lt, BitVec.ofNat_eq_ofNat, BitVec.toInt_zero]
  split
  case isTrue negative =>
    rw [← BitVec.ofInt_natCast n x.toInt.natAbs, Int.ofNat_natAbs_of_nonpos (Int.le_of_lt negative), BitVec.ofInt_neg, BitVec.ofInt_toInt,
      BitVec.zero_sub]
  case isFalse positive =>
    rw [← BitVec.ofInt_natCast n x.toInt.natAbs, Int.natAbs_of_nonneg (Int.not_lt.mp positive), BitVec.ofInt_toInt]

theorem shiftLeft_eq_ofNat {n : Nat} (x : BitVec n) (k : Nat) : x <<< k = BitVec.ofNat n (x.toNat * 2 ^ k) :=
  BitVec.eq_of_toNat_eq (by rw [BitVec.toNat_shiftLeft, BitVec.toNat_ofNat, Nat.shiftLeft_eq])

theorem ushiftRight_eq_ofNat {n : Nat} (x : BitVec n) (k : Nat) : x >>> k = BitVec.ofNat n (x.toNat / 2 ^ k) := by
  rw [← Nat.shiftRight_eq_div_pow, ← BitVec.toNat_ushiftRight, ofNat_toNat_self]

theorem sshiftRight_eq_ofInt {n : Nat} (x : BitVec n) (k : Nat) : x.sshiftRight k = BitVec.ofInt n (x.toInt / 2 ^ k) := by
  rw [BitVec.sshiftRight_eq, Int.shiftRight_eq_div_pow, Int.natCast_pow]
  rfl

/-- A left shift by the width or more is 0 (15 R361; 16 R410). -/
theorem ite_shiftLeft_eq_ofNat {n : Nat} (x : BitVec n) (k : Nat) :
    (if n ≤ k then 0 else x <<< k) = BitVec.ofNat n (x.toNat * 2 ^ k) := by
  rw [← shiftLeft_eq_ofNat, ite_eq_right_iff]
  exact fun wide => (BitVec.shiftLeft_eq_zero wide).symm

/-- A right shift by the width or more is 0 (15 R361; 16 R410). -/
theorem ite_ushiftRight_eq_ofNat {n : Nat} (x : BitVec n) (k : Nat) :
    (if n ≤ k then 0 else x >>> k) = BitVec.ofNat n (x.toNat / 2 ^ k) := by
  rw [← ushiftRight_eq_ofNat, ite_eq_right_iff]
  exact fun wide => (BitVec.ushiftRight_eq_zero wide).symm

/-- Every bit of a word shifted right by all its bits but the sign, or by more, is the sign. -/
theorem getElem_sshiftRight_of_le {n k i : Nat} (x : BitVec (n + 1)) (hk : n ≤ k) (hi : i < n + 1) :
    (x.sshiftRight k)[i] = x.msb := by
  rw [BitVec.getElem_sshiftRight]
  split
  case isTrue inside =>
    obtain ⟨rfl, rfl⟩ : k = n ∧ i = 0 := by omega
    exact (BitVec.msb_eq_getLsbD_last x).symm
  case isFalse => rfl

/-- An arithmetic right shift by the width or more leaves the sign alone (15 R361; 16 R410). -/
theorem sshiftRight_min_eq_ofInt {n : Nat} (x : BitVec (n + 1)) (k : Nat) :
    x.sshiftRight (min k n) = BitVec.ofInt (n + 1) (x.toInt / 2 ^ k) := by
  rw [← sshiftRight_eq_ofInt]
  rcases Nat.le_total k n with within | beyond
  · rw [Nat.min_eq_left within]
  · rw [Nat.min_eq_right beyond]
    ext i hi
    rw [getElem_sshiftRight_of_le x (Nat.le_refl n) hi, getElem_sshiftRight_of_le x beyond hi]

/-- The zero bits above the highest one bit of a number below 2^n, counted from bit n − 1 down. -/
theorem length_takeWhile_zeros {n x : Nat} (h : x < 2 ^ n) :
    ((List.range n).reverse.takeWhile (fun k => !x.testBit k)).length = if x = 0 then n else n - 1 - Nat.log2 x := by
  induction n with
  | zero => simp
  | succ n ih =>
    rw [List.range_succ, List.reverse_append, List.reverse_singleton, List.singleton_append, List.takeWhile_cons]
    by_cases low : x < 2 ^ n
    case pos =>
      have log : x ≠ 0 → Nat.log2 x < n := fun nonzero => (Nat.log2_lt nonzero).mpr low
      rw [Nat.testBit_lt_two_pow low, Bool.not_false, if_pos rfl, List.length_cons, ih low]
      split <;> omega
    case neg =>
      have nonzero : x ≠ 0 := fun zero => low (zero ▸ Nat.two_pow_pos n)
      have log : Nat.log2 x = n := (Nat.log2_eq_iff nonzero).mpr ⟨Nat.not_lt.mp low, h⟩
      rw [Nat.testBit_of_two_pow_le_and_two_pow_add_one_gt (Nat.not_lt.mp low) h, Bool.not_true, if_neg Bool.false_ne_true,
        List.length_nil, if_neg nonzero, log]
      omega

/-- The count of VCLZ (15 R381). -/
theorem zerosAbove_eq (x : Word) : zerosAbove x = ((List.range 32).reverse.takeWhile (fun k => !x.getLsbD k)).length := by
  have zero : x = 0 ↔ x.toNat = 0 := BitVec.toNat_inj.symm
  rw [zerosAbove, show (fun k => !x.getLsbD k) = fun k => !x.toNat.testBit k from rfl, length_takeWhile_zeros x.isLt]
  simp only [zero]

/-- The count of VPOPC (15 R381). -/
theorem onesOf_eq (x : Word) : onesOf x = (List.range 32).countP x.getLsbD := List.countP_eq_length_filter.symm

/-- The signed value of n bits (05 R95). -/
theorem signedNat_eq_bmod {n v : Nat} (hn : n ≠ 0) (hv : v < 2 ^ n) : signedNat n v = Int.bmod v (2 ^ n) := by
  obtain ⟨m, rfl⟩ := Nat.exists_eq_succ_of_ne_zero hn
  have whole : (v : Int) % ((2 ^ m.succ : Nat) : Int) = v := Int.emod_eq_of_lt (Int.natCast_nonneg v) (Int.ofNat_lt.mpr hv)
  rw [Nat.pow_succ] at hv
  rw [signedNat, Int.bmod_def, whole, Nat.succ_sub_one, Nat.pow_succ]
  split <;> split <;> omega

/-- VBFE.i: an empty field is 0, as its only value is (15 R380). -/
theorem fieldSigned_eq (x f : Word) : fieldSigned x f = BitVec.ofInt 32 (Int.bmod (fieldBits x f) (2 ^ (fieldOf f).2)) := by
  have below : fieldBits x f < 2 ^ (fieldOf f).2 := Nat.mod_lt _ (Nat.two_pow_pos _)
  rw [fieldSigned]
  split
  case isTrue empty =>
    rw [empty] at below ⊢
    rw [Nat.lt_one_iff.mp below]
    rfl
  case isFalse some => rw [signedNat_eq_bmod some below]

/-- A number with its n bits from bit p up replaced by those of another. -/
theorem testBit_replace_field (c x p n i : Nat) :
    (c - c / 2 ^ p % 2 ^ n * 2 ^ p + x % 2 ^ n * 2 ^ p).testBit i = if p ≤ i ∧ i < p + n then x.testBit (i - p) else c.testBit i := by
  have parts : c - c / 2 ^ p % 2 ^ n * 2 ^ p + x % 2 ^ n * 2 ^ p = 2 ^ p * (2 ^ n * (c / 2 ^ p / 2 ^ n) + x % 2 ^ n) + c % 2 ^ p := by
    have split_low := Nat.div_add_mod c (2 ^ p)
    have split_field := congrArg (2 ^ p * ·) (Nat.div_add_mod (c / 2 ^ p) (2 ^ n))
    simp only [Nat.mul_add, Nat.mul_comm (_ % 2 ^ n)] at split_field ⊢
    omega
  rw [parts, Nat.testBit_two_pow_mul_add _ (Nat.mod_lt _ (Nat.two_pow_pos p)),
    Nat.testBit_two_pow_mul_add _ (Nat.mod_lt _ (Nat.two_pow_pos n)), Nat.testBit_mod_two_pow, Nat.testBit_mod_two_pow,
    Nat.testBit_div_two_pow, Nat.testBit_div_two_pow]
  by_cases below : i < p
  · rw [if_pos below, decide_eq_true below, Bool.true_and, if_neg (by omega)]
  · rw [if_neg below]
    by_cases inside : i - p < n
    · rw [if_pos inside, decide_eq_true inside, Bool.true_and, if_pos (by omega)]
    · rw [if_neg inside, if_neg (by omega), show i - p - n + n + p = i by omega]

/-- VBFI (15 R380). -/
theorem fieldInsert_eq (c x f : Word) : fieldInsert c x f =
    BitVec.ofNat 32 (c.toNat - c.toNat / 2 ^ (fieldOf f).1 % 2 ^ (fieldOf f).2 * 2 ^ (fieldOf f).1 +
      x.toNat % 2 ^ (fieldOf f).2 * 2 ^ (fieldOf f).1) := by
  apply BitVec.eq_of_getLsbD_eq
  intro i hi
  rw [BitVec.getLsbD_ofNat, testBit_replace_field, fieldInsert]
  simp only [BitVec.getLsbD_or, BitVec.getLsbD_and, BitVec.getLsbD_not, BitVec.getLsbD_ofNat, BitVec.getLsbD_shiftLeft,
    Nat.testBit_mul_two_pow, Nat.testBit_two_pow_sub_one, BitVec.testBit_toNat, hi, decide_true, Bool.true_and]
  by_cases below : i < (fieldOf f).1
  · simp [below, Nat.not_le.mpr below]
  · have lt_iff : i < (fieldOf f).1 + (fieldOf f).2 ↔ i - (fieldOf f).1 < (fieldOf f).2 := by omega
    by_cases inside : i - (fieldOf f).1 < (fieldOf f).2 <;> simp [below, Nat.not_lt.mp below, lt_iff, inside]

end Sys2Proof.Machine
end

section
/-!
Vector words of the integer, logic and immediate majors (04 R72, R74-R79; 15 R372, R375, R376, R380, R381; 16 R400-R412): how the
fields are read back, bare and guarded.
-/
namespace Sys2Proof.Machine

/-- What goes before an instruction, if anything, has no field set that the instruction does not take (04 R75, R76). -/
def TakesAll (u : PreUse) (q : Option APre) : Prop := ∀ p, q = some p → unusedArith u p = false

theorem takesAll_gz {q : Option APre} (hq : usesGuard q) : TakesAll .gz q := by
  intro p hp
  obtain ⟨rnd, sat, vc⟩ := hq p hp
  simp [unusedArith, PreUse.hasZ, rnd, sat, vc]

theorem takesAll_gzc {q : Option APre} (hq : usesGuardAndFourth q) : TakesAll .gzc q := by
  intro p hp
  obtain ⟨rnd, sat⟩ := hq p hp
  simp [unusedArith, PreUse.hasZ, PreUse.hasVc, rnd, sat]

theorem usesGuardAndFourth_of_usesGuard {q : Option APre} (hq : usesGuard q) : usesGuardAndFourth q := by
  intro p hp
  obtain ⟨rnd, sat, -⟩ := hq p hp
  exact ⟨rnd, sat⟩

/-- A vector word decodes as `decodeVector` reads it, bare or after guard, zeroing and a fourth operand that its major may take and it
does take (04 R75, R76). -/
theorem decodeWords_taken {q : Option APre} (hq : usesGuardAndFourth q) {w m : Nat} {u v : PreUse} (hw : fld w 25 7 = m) (hm : m < 0x3F)
    (mayUse : majorUse w = some u) (mayTake : TakesAll u q) (uses : arithUse w = some v) (takes : TakesAll v q) :
    decodeWords (guardedWords q w) = decodeVector q none w := by
  have not_uniform : ¬fld w 31 1 = 1 := by unfold fld at *; omega
  have not_prefix : ¬isPrefixWord w = true := by rw [isPrefixWord, hw, beq_iff_eq]; omega
  cases q with
  | none => rw [guardedWords, decodeWords, decode, if_neg not_uniform, if_neg not_prefix]
  | some p =>
    obtain ⟨rnd, sat⟩ := hq p rfl
    obtain ⟨fields, vector, isPrefix, kind, rounding, saturation, low⟩ := aprefixWord_fields p
    have not_reserved : prefixReserved (aprefixWord p) = false := by
      simp [prefixReserved, kind, rounding, saturation, low, rnd, sat]
    have not_unused : prefixUnused (aprefixWord p) w = false := by
      rw [prefixUnused, if_pos kind, mayUse, fields, Option.any_some, mayTake p rfl]
    rw [guardedWords_some, decodeWords, decode, if_neg vector, if_pos isPrefix, decodePrefixed, not_reserved, not_unused,
      if_neg not_uniform, if_neg not_prefix, if_pos kind, fields, uses]
    simp only [takes p rfl, Bool.false_eq_true, if_false]
    cases decodeVector (some p) none w with
    | error e => rfl
    | ok i => rfl

/-- A vector word with a destination and a first source (04 R72). -/
def vectorWord (maj : Nat) (d a : BitVec 7) (rest : Nat) : Nat := maj * 2 ^ 25 + d.toNat * 2 ^ 18 + a.toNat * 2 ^ 11 + rest

/-- A vector word with a second source and a function code (04 R72). -/
def registerWord (maj : Nat) (d a b : BitVec 7) (fn : Nat) : Nat := vectorWord maj d a (b.toNat * 2 ^ 4 + fn)

/-- A vector word with an immediate of 11 bits (04 R72). -/
def immediateWord (maj : Nat) (d a : BitVec 7) (i : BitVec 11) : Nat := vectorWord maj d a i.toNat

/-- A word of the shifts by an immediate (16 R410). -/
def shiftWord (d a : BitVec 7) (op : Nat) (n : BitVec 5) : Nat := vectorWord 7 d a (op * 2 ^ 9 + n.toNat)

theorem vectorWord_major {maj : Nat} (d a : BitVec 7) {rest : Nat} (h : rest < 2 ^ 11) (hm : maj < 2 ^ 6) :
    fld (vectorWord maj d a rest) 25 7 = maj := by
  unfold fld vectorWord; omega

@[simp] theorem registerWord_fields (maj : Nat) (d a b : BitVec 7) {fn : Nat} (h : fn < 16) :
    bfld (registerWord maj d a b fn) 18 7 = d ∧ bfld (registerWord maj d a b fn) 11 7 = a ∧
      bfld (registerWord maj d a b fn) 4 7 = b ∧ fld (registerWord maj d a b fn) 4 7 = b.toNat ∧
      fld (registerWord maj d a b fn) 0 4 = fn := by
  unfold registerWord vectorWord
  exact ⟨bfld_eq (by omega), bfld_eq (by omega), bfld_eq (by omega), by unfold fld; omega, by unfold fld; omega⟩

@[simp] theorem immediateWord_fields (maj : Nat) (d a : BitVec 7) (i : BitVec 11) :
    bfld (immediateWord maj d a i) 18 7 = d ∧ bfld (immediateWord maj d a i) 11 7 = a ∧ bfld (immediateWord maj d a i) 0 11 = i := by
  unfold immediateWord vectorWord
  exact ⟨bfld_eq (by omega), bfld_eq (by omega), bfld_eq (by omega)⟩

@[simp] theorem shiftWord_fields (d a : BitVec 7) {op : Nat} (h : op < 4) (n : BitVec 5) :
    bfld (shiftWord d a op n) 18 7 = d ∧ bfld (shiftWord d a op n) 11 7 = a ∧ bfld (shiftWord d a op n) 0 5 = n ∧
      fld (shiftWord d a op n) 5 4 = 0 ∧ fld (shiftWord d a op n) 9 2 = op := by
  unfold shiftWord vectorWord
  exact ⟨bfld_eq (by omega), bfld_eq (by omega), bfld_eq (by omega), by unfold fld; omega, by unfold fld; omega⟩

/-- The low bits of the major, which name its decoder (04 R79). -/
theorem fld_major_low {w m : Nat} (hw : fld w 25 7 = m) (hm : m < 0x3F) : fld w 25 6 = m := by
  unfold fld at *; omega

theorem registerWord_major {maj : Nat} (d a b : BitVec 7) {fn : Nat} (hm : maj < 2 ^ 6) (hf : fn < 16) :
    fld (registerWord maj d a b fn) 25 7 = maj :=
  vectorWord_major d a (by omega) hm

/-- A word of VINT or of VLOGIC, whose VMAD and VBFI take a fourth operand and whose other instructions do not (04 R76). -/
theorem decodeWords_registerWord {q : Option APre} (hq : usesGuardAndFourth q) {maj four : Nat}
    (hm : maj = 1 ∧ four = 5 ∨ maj = 2 ∧ four = 8) (d a b : BitVec 7) {fn : Nat} (hf : fn < 16)
    (takes : TakesAll (if fn = four then .gzc else .gz) q) :
    decodeWords (guardedWords q (registerWord maj d a b fn)) = decodeVector q none (registerWord maj d a b fn) := by
  have major := registerWord_major (maj := maj) d a b (by omega) hf
  have low := fld_major_low major (by omega)
  obtain ⟨-, -, -, -, code⟩ := registerWord_fields maj d a b hf
  rcases hm with ⟨rfl, rfl⟩ | ⟨rfl, rfl⟩
  all_goals
    exact decodeWords_taken hq major (by decide) (by simp only [majorUse, low]) (takesAll_gzc hq)
      (by simp only [arithUse, low, code]) takes

/-- A word of a major that takes no fourth operand, here those with an immediate and VSEL (04 R76, R79). -/
theorem decodeWords_of_major {q : Option APre} (hq : usesGuard q) {maj w : Nat} (hw : fld w 25 7 = maj)
    (hm : maj ∈ [3, 4, 5, 6, 7, 8, 14]) : decodeWords (guardedWords q w) = decodeVector q none w := by
  simp only [List.mem_cons, List.not_mem_nil, or_false] at hm
  have low := fld_major_low hw (by omega)
  refine decodeWords_guarded hq hw (by omega) ?_ ?_ <;> rcases hm with rfl | rfl | rfl | rfl | rfl | rfl | rfl <;>
    simp only [majorUse, arithUse, low]

theorem decodeVector_vint (q : Option APre) (d a b : BitVec 7) {fn : Nat} (hf : fn < 16) :
    decodeVector q none (registerWord 1 d a b fn) = decodeVint q (registerWord 1 d a b fn) := by
  have low : fld (registerWord 1 d a b fn) 25 6 = 1 := fld_major_low (registerWord_major d a b (by decide) hf) (by decide)
  simp only [decodeVector, low]

theorem decodeVector_vlogic (q : Option APre) (d a b : BitVec 7) {fn : Nat} (hf : fn < 16) :
    decodeVector q none (registerWord 2 d a b fn) = decodeVlogic q (registerWord 2 d a b fn) := by
  have low : fld (registerWord 2 d a b fn) 25 6 = 2 := fld_major_low (registerWord_major d a b (by decide) hf) (by decide)
  simp only [decodeVector, low]

/-- VINT and VLOGIC words read without a fourth operand. -/
theorem reads_registerWord {q : Option APre} (hq : usesGuard q) {maj four : Nat} (hm : maj = 1 ∧ four = 5 ∨ maj = 2 ∧ four = 8)
    (d a b : BitVec 7) {fn : Nat} {i : Instr} (hf : fn < 16) (other : fn ≠ four)
    (h : decodeVector q none (registerWord maj d a b fn) = .ok i) : Reads q (registerWord maj d a b fn) i :=
  (decodeWords_registerWord (usesGuardAndFourth_of_usesGuard hq) hm d a b hf (by rw [if_neg other]; exact takesAll_gz hq)).trans h

/-- The word of VMAD or of VBFI (04 R76). -/
theorem reads_fourthWord {q : Option APre} (hq : usesGuardAndFourth q) {maj four : Nat} (hm : maj = 1 ∧ four = 5 ∨ maj = 2 ∧ four = 8)
    (d a b : BitVec 7) {i : Instr} (h : decodeVector q none (registerWord maj d a b four) = .ok i) :
    Reads q (registerWord maj d a b four) i :=
  (decodeWords_registerWord hq hm d a b (by omega) (by rw [if_pos rfl]; exact takesAll_gzc hq)).trans h

/-- The words of the operations with an immediate of 11 bits (15 R375, R376). -/
theorem decodeVector_immediateWord (q : Option APre) (d a : BitVec 7) (i : BitVec 11) :
    decodeVector q none (immediateWord 3 d a i) = .ok (.vaddi q d a i) ∧
      decodeVector q none (immediateWord 4 d a i) = .ok (.vandi q d a i) ∧
      decodeVector q none (immediateWord 5 d a i) = .ok (.vori q d a i) ∧
      decodeVector q none (immediateWord 6 d a i) = .ok (.vxori q d a i) := by
  have low : ∀ maj, maj < 0x3F → fld (immediateWord maj d a i) 25 6 = maj := fun maj hm =>
    fld_major_low (vectorWord_major d a i.isLt (by omega)) hm
  simp [decodeVector, low, decodeVaddi, decodeVandi, decodeVori, decodeVxori]

theorem reads_immediateWord {q : Option APre} (hq : usesGuard q) {maj : Nat} (hm : maj ∈ [3, 4, 5, 6, 7, 8, 14]) (d a : BitVec 7)
    (i : BitVec 11) {k : Instr} (h : decodeVector q none (immediateWord maj d a i) = .ok k) : Reads q (immediateWord maj d a i) k := by
  have small : ∀ m ∈ [3, 4, 5, 6, 7, 8, 14], m < 2 ^ 6 := by decide
  exact (decodeWords_of_major hq (vectorWord_major d a i.isLt (small maj hm)) hm).trans h

/-- The words of the integer instructions (15 R372, R375, R381; 16 R400, R401). -/
theorem vectorIntegerWords : Claims.VectorIntegerWords := by
  intro q d a b i vr
  have word : ∀ (y : BitVec 7) fn, vr y.toNat fn = registerWord 1 d a y fn := fun _ _ => Nat.add_assoc ..
  have major : 1 = 1 ∧ 5 = 5 ∨ 1 = 2 ∧ 5 = 8 := by decide
  refine ⟨fun hq => ?alone, fun hq => ?vmad⟩
  case vmad =>
    rw [word]
    exact reads_fourthWord hq major d a b ((decodeVector_vint q d a b (by decide)).trans (by simp [decodeVint]))
  case alone =>
    obtain ⟨vaddi, -, -, -⟩ := decodeVector_immediateWord q d a i
    have reads : ∀ (y : BitVec 7) (fn : Nat) {i}, fn < 16 → fn ≠ 5 → decodeVint q (registerWord 1 d a y fn) = .ok i →
        Reads q (vr y.toNat fn) i := by
      intro y fn i hf five h
      rw [word]
      exact reads_registerWord hq major d a y hf five ((decodeVector_vint q d a y hf).trans h)
    refine ⟨reads b 0 ?_ ?_ ?_, reads b 1 ?_ ?_ ?_, reads b 2 ?_ ?_ ?_, reads b 3 ?_ ?_ ?_, reads b 4 ?_ ?_ ?_, reads b 6 ?_ ?_ ?_,
      reads b 7 ?_ ?_ ?_, reads b 8 ?_ ?_ ?_, reads b 9 ?_ ?_ ?_, reads 0 10 ?_ ?_ ?_, reads 0 11 ?_ ?_ ?_, reads 0 12 ?_ ?_ ?_,
      reads_immediateWord hq (by decide) d a i vaddi⟩
    all_goals simp [decodeVint]

/-- The words of the shifts by an immediate (16 R410). -/
theorem decodeVshi_shiftWord (q : Option APre) (d a : BitVec 7) (n : BitVec 5) :
    decodeVshi q (shiftWord d a 0 n) = .ok (.vshlImm q d a n) ∧ decodeVshi q (shiftWord d a 1 n) = .ok (.vshrImm q d a n) ∧
      decodeVshi q (shiftWord d a 2 n) = .ok (.vsarImm q d a n) := by
  simp [decodeVshi]

/-- A shift by an immediate with the reserved code or a field that must be zero and is not (16 R410). -/
theorem decodeVshi_reserved (q : Option APre) {w : Nat} (h : fld w 9 2 = 3 ∨ fld w 5 4 ≠ 0) :
    decodeVshi q w = .error .reservedField := by
  unfold decodeVshi
  split
  case h_1 op | h_2 op | h_3 op => exact if_neg (h.resolve_left (by omega))
  case h_4 => rfl

theorem decodeWords_vshi {q : Option APre} (hq : usesGuard q) (d a : BitVec 7) {rest : Nat} (h : rest < 2 ^ 11) :
    decodeWords (guardedWords q (vectorWord 7 d a rest)) = decodeVshi q (vectorWord 7 d a rest) := by
  have major := vectorWord_major d a h (maj := 7) (by decide)
  have low := fld_major_low major (by decide)
  rw [decodeWords_of_major hq major (by decide), decodeVector]
  simp only [low]

/-- The code 3 and an amount of more than 5 bits are reserved (16 R410). -/
theorem readsIllegal_vshi {q : Option APre} (hq : usesGuard q) (d a : BitVec 7) (i : BitVec 11)
    (h : 3 * 2 ^ 9 ≤ i.toNat ∨ i.toNat / 2 ^ 5 % 2 ^ 4 ≠ 0) : ReadsIllegal q (vectorWord 7 d a i.toNat) := by
  have code : fld (vectorWord 7 d a i.toNat) 9 2 = i.toNat / 2 ^ 9 := by unfold fld vectorWord; omega
  have zeros : fld (vectorWord 7 d a i.toNat) 5 4 = i.toNat / 2 ^ 5 % 2 ^ 4 := by unfold fld vectorWord; omega
  refine ⟨_, (decodeWords_vshi hq d a i.isLt).trans (decodeVshi_reserved q ?_), rfl⟩
  rw [code, zeros]
  omega

/-- The word of VMOVI (16 R403). -/
theorem reads_vmovi {q : Option APre} (hq : usesGuard q) (d : BitVec 7) (j : BitVec 18) :
    Reads q (0x08 * 2 ^ 25 + d.toNat * 2 ^ 18 + j.toNat) (.vmovi q d j) := by
  generalize hx : 0x08 * 2 ^ 25 + d.toNat * 2 ^ 18 + j.toNat = x
  have major : fld x 25 7 = 8 := by unfold fld; omega
  have low := fld_major_low major (by decide)
  rw [Reads, decodeWords_of_major hq major (by decide), decodeVector]
  simp only [low]
  rw [decodeVmovi, bfld_eq (v := d) (by omega), bfld_eq (v := j) (by omega)]

/-- The word of VSEL (16 R412). -/
theorem reads_vsel {q : Option APre} (hq : usesGuard q) (d a b : BitVec 7) (p : BitVec 4) :
    Reads q (registerWord 14 d a b p.toNat) (.vsel q d a b p) := by
  have major := registerWord_major d a b (maj := 14) (by decide) p.isLt
  have low := fld_major_low major (by decide)
  have selector : bfld (registerWord 14 d a b p.toNat) 0 4 = p := bfld_eq (by unfold registerWord vectorWord; omega)
  obtain ⟨vd, va, vb, -, -⟩ := registerWord_fields 14 d a b p.isLt
  rw [Reads, decodeWords_of_major hq major (by decide), decodeVector]
  simp only [low]
  rw [decodeVsel, vd, va, vb, selector]

/-- The words of the bitwise, shift and bit-field instructions, VMOVI and VSEL (15 R376, R379, R380; 16 R403, R410, R412). -/
theorem vectorLogicWords : Claims.VectorLogicWords := by
  intro q d a b i j n p word vr
  have major : 2 = 1 ∧ 8 = 5 ∨ 2 = 2 ∧ 8 = 8 := by decide
  refine ⟨fun hq => ?alone, fun hq => ?vbfi⟩
  case vbfi =>
    exact reads_fourthWord hq major d a b ((decodeVector_vlogic q d a b (by decide)).trans (by simp [decodeVlogic]))
  case alone =>
    have reads : ∀ (fn : Nat) {i}, fn < 16 → fn ≠ 8 → decodeVlogic q (registerWord 2 d a b fn) = .ok i → Reads q (vr 0x02 fn) i :=
      fun fn _ hf eight h => reads_registerWord hq major d a b hf eight ((decodeVector_vlogic q d a b hf).trans h)
    have left : n.toNat = 0 * 2 ^ 9 + n.toNat := by omega
    obtain ⟨-, vandi, vori, vxori⟩ := decodeVector_immediateWord q d a i
    obtain ⟨shl, shr, sar⟩ := decodeVshi_shiftWord q d a n
    refine ⟨reads 0 ?_ ?_ ?_, reads 1 ?_ ?_ ?_, reads 2 ?_ ?_ ?_, reads 3 ?_ ?_ ?_, reads 4 ?_ ?_ ?_, reads 5 ?_ ?_ ?_,
      reads 6 ?_ ?_ ?_, reads 7 ?_ ?_ ?_, reads_immediateWord hq (by decide) d a i vandi,
      reads_immediateWord hq (by decide) d a i vori, reads_immediateWord hq (by decide) d a i vxori,
      left ▸ (decodeWords_vshi hq d a (by omega)).trans shl, (decodeWords_vshi hq d a (by omega)).trans shr,
      (decodeWords_vshi hq d a (by omega)).trans sar, readsIllegal_vshi hq d a i, reads_vmovi hq d j, reads_vsel hq d a b p⟩
    all_goals simp [decodeVlogic]

end Sys2Proof.Machine
end

section
/-!
What vector instructions that count no event write (15 R371, R372, R375, R376, R380, R381; 16 R400-R403, R410, R412).
-/
namespace Sys2Proof.Machine

/-- An instruction whose meaning is a vector operation without events gives its register the operation's results. -/
theorem givesV_of_vectorPure (m : State → Out) {i : Instr} {s : State} {w : Warp} {q : Option APre} {d : BitVec 7} {srcs : List Nat}
    {f : Cx → Nat → Word} {g : Nat → Word} (h : OnTurn s w) (arm : exec i s = m s) (meaning : m s = vectorPure q d.toNat srcs f s)
    (ready : VectorReady w q d.toNat srcs) (results : ∀ l, f (turnCx s w) l = g l) : GivesV i s w q d g := by
  obtain ⟨t, w', next, own, frame, counted, slices, pending, moved, wrote⟩ := vectorPure_retires h q d.toNat srcs f ready
  exact ⟨t, w', (arm.trans meaning).trans next, own, frame, counted, slices, pending, moved, funext results ▸ wrote⟩

/-- What the integer instructions write (15 R371, R372, R375, R381; 16 R400, R401). -/
theorem vectorIntegerResults : Claims.VectorIntegerResults := by
  intro s w q d a b i h x y
  refine ⟨fun ready => ⟨?vadd, ?vsub, ?vmul, ?vmulhI, ?vmulhN, ?vminI, ?vminN, ?vmaxI, ?vmaxN⟩, fun ready => ?vmad,
    fun ready => ⟨?vabs, ?vclz, ?vpopc, ?vaddi⟩⟩
  case vadd => exact givesV_of_vectorPure (execVadd q d a b) h rfl rfl ready fun _ => BitVec.add_def ..
  case vsub => exact givesV_of_vectorPure (execVsub q d a b) h rfl rfl ready fun _ => sub_eq_ofInt ..
  case vmul => exact givesV_of_vectorPure (execVmul q d a b) h rfl rfl ready fun _ => mul_eq_ofNat ..
  case vmulhI => exact givesV_of_vectorPure (execVmulhI q d a b) h rfl rfl ready fun _ => rfl
  case vmulhN => exact givesV_of_vectorPure (execVmulhN q d a b) h rfl rfl ready fun _ => rfl
  case vminI => exact givesV_of_vectorPure (execVminI q d a b) h rfl rfl ready fun _ => ite_slt_eq_min ..
  case vminN => exact givesV_of_vectorPure (execVminN q d a b) h rfl rfl ready fun _ => ite_ult_eq_min ..
  case vmaxI => exact givesV_of_vectorPure (execVmaxI q d a b) h rfl rfl ready fun _ => ite_slt_eq_max ..
  case vmaxN => exact givesV_of_vectorPure (execVmaxN q d a b) h rfl rfl ready fun _ => ite_ult_eq_max ..
  case vmad => exact givesV_of_vectorPure (execVmad q d a b) h rfl rfl ready fun _ => mul_add_eq_ofNat ..
  case vabs => exact givesV_of_vectorPure (execVabs q d a) h rfl rfl ready fun _ => ite_slt_zero_eq_natAbs ..
  case vclz => exact givesV_of_vectorPure (execVclz q d a) h rfl rfl ready fun _ => congrArg (BitVec.ofNat 32) (zerosAbove_eq _)
  case vpopc => exact givesV_of_vectorPure (execVpopc q d a) h rfl rfl ready fun _ => congrArg (BitVec.ofNat 32) (onesOf_eq _)
  case vaddi => exact givesV_of_vectorPure (execVaddi q d a i) h rfl rfl ready fun _ => add_signExtend ..

/-- Settles O32: each word's fields are read back, and each instruction is a vector operation whose results are the integers' of the
statement. -/
theorem vectorIntegers : Obligations.VectorIntegers := ⟨vectorIntegerWords, vectorIntegerResults⟩

/-- What the bitwise, shift and bit-field instructions write (15 R371, R376, R380; 16 R410). -/
theorem vectorLogicResults : Claims.VectorLogicResults := by
  intro s w q d a b i n h x y pos len
  refine ⟨fun ready => ⟨?vand, ?vor, ?vxor, ?vshl, ?vshr, ?vsar, ?vbfeI, ?vbfeN⟩, fun ready => ?vbfi,
    fun ready => ⟨?vandi, ?vori, ?vxori, ?vshlImm, ?vshrImm, ?vsarImm⟩⟩
  case vand => exact givesV_of_vectorPure (execVand q d a b) h rfl rfl ready fun _ => rfl
  case vor => exact givesV_of_vectorPure (execVor q d a b) h rfl rfl ready fun _ => rfl
  case vxor => exact givesV_of_vectorPure (execVxor q d a b) h rfl rfl ready fun _ => rfl
  case vshl => exact givesV_of_vectorPure (execVshl q d a b) h rfl rfl ready fun _ => ite_shiftLeft_eq_ofNat ..
  case vshr => exact givesV_of_vectorPure (execVshr q d a b) h rfl rfl ready fun _ => ite_ushiftRight_eq_ofNat ..
  case vsar => exact givesV_of_vectorPure (execVsar q d a b) h rfl rfl ready fun _ => sshiftRight_min_eq_ofInt ..
  case vbfeI => exact givesV_of_vectorPure (execVbfeI q d a b) h rfl rfl ready fun _ => fieldSigned_eq ..
  case vbfeN => exact givesV_of_vectorPure (execVbfeN q d a b) h rfl rfl ready fun _ => rfl
  case vbfi => exact givesV_of_vectorPure (execVbfi q d a b) h rfl rfl ready fun _ => fieldInsert_eq ..
  case vandi => exact givesV_of_vectorPure (execVandi q d a i) h rfl rfl ready fun _ => rfl
  case vori => exact givesV_of_vectorPure (execVori q d a i) h rfl rfl ready fun _ => rfl
  case vxori => exact givesV_of_vectorPure (execVxori q d a i) h rfl rfl ready fun _ => rfl
  case vshlImm => exact givesV_of_vectorPure (execVshlImm q d a n) h rfl rfl ready fun _ => shiftLeft_eq_ofNat ..
  case vshrImm => exact givesV_of_vectorPure (execVshrImm q d a n) h rfl rfl ready fun _ => ushiftRight_eq_ofNat ..
  case vsarImm => exact givesV_of_vectorPure (execVsarImm q d a n) h rfl rfl ready fun _ => sshiftRight_eq_ofInt ..

/-- The checks of a move that reads no predicate but its guard's. -/
theorem Readable.append_nil {w : Warp} {act zeroed : LaneMask} {regs dst srcV srcS srcP : List Nat}
    (r : Readable w act zeroed regs dst srcV srcS srcP) : Readable w act zeroed regs dst srcV srcS (srcP ++ []) := by
  rwa [List.append_nil]

/-- A move whose sources can be read retires quietly and writes its register (16 R402, R412). -/
theorem moveOp_retires {s : State} {w : Warp} (h : OnTurn s w) (q : Option APre) (d : BitVec 7) (srcV srcS srcP : List Nat)
    (f : Cx → Nat → Word) (r : Readable w (activeA w q) (zeroedA w q) (d.toNat :: srcV) [d.toNat] srcV srcS (guardRegA q ++ srcP)) :
    ∃ t w', moveOp q d.toNat srcV srcS srcP f s = .next t ∧ getWarp t s.cur.1 s.cur.2 = some w' ∧ TurnFrame s t w ∧
      EventsCounted s t w [] ∧ t.slices = s.slices ∧ w'.pendThr = w.pendThr ∧ MovedOn w w' (lenOf q) ∧
      WroteV w w' d.toNat (activeA w q) (zeroedA w q) (f (turnCx s w)) := by
  obtain ⟨regs, table, lanes⟩ := r
  obtain ⟨u, retired, own, frame, counted, slices⟩ := retire_silent (s := s) (w := w) (getTeam s s.cur.1 w.team)
    (advance (lenOf q) (writeV (bump w) d.toNat (activeA w q) (zeroedA w q) (f (turnCx s w))))
  refine ⟨u, _, ?_, own, frame, counted, slices, rfl, wroteV_writeV w d.toNat _ _ _ _ _ rfl⟩
  rw [← retired, moveOp, withCx_turnCx h]
  exact vchecks_readable (turnCx s w) (groups_readable regs) table lanes _

/-- An instruction whose meaning is a move gives its register the move's results. -/
theorem givesV_of_moveOp (m : State → Out) {i : Instr} {s : State} {w : Warp} {q : Option APre} {d : BitVec 7}
    {srcV srcS srcP : List Nat} {f : Cx → Nat → Word} {g : Nat → Word} (h : OnTurn s w) (arm : exec i s = m s)
    (meaning : m s = moveOp q d.toNat srcV srcS srcP f s)
    (ready : Readable w (activeA w q) (zeroedA w q) (d.toNat :: srcV) [d.toNat] srcV srcS (guardRegA q ++ srcP))
    (results : ∀ l, f (turnCx s w) l = g l) : GivesV i s w q d g := by
  obtain ⟨t, w', next, own, frame, counted, slices, pending, moved, wrote⟩ := moveOp_retires h q d srcV srcS srcP f ready
  exact ⟨t, w', (arm.trans meaning).trans next, own, frame, counted, slices, pending, moved, funext results ▸ wrote⟩

theorem setWidth_ushiftRight_eq_ofNat (x : DWord) : (x >>> (32 : Nat)).setWidth 32 = BitVec.ofNat 32 (x.toNat / 2 ^ 32) := by
  rw [← BitVec.ofNat_toNat, BitVec.toNat_ushiftRight, Nat.shiftRight_eq_div_pow]

/-- What selections and moves write (16 R402, R403, R412; 02 R19). -/
theorem vectorMoveResults : Claims.VectorMoveResults := by
  intro s w q d a b p r i h act zeroed
  refine ⟨fun ready => ?vsel, fun ready => ?vmov, fun ready => ?vmovLo, fun ready => ?vmovHi,
    fun ready => ⟨?vmovLane, ?vmovTid, ?vmovi⟩⟩
  case vsel => exact givesV_of_moveOp (execVsel q d a b p) h rfl rfl ready fun _ => rfl
  case vmov => exact givesV_of_moveOp (execVmov q d a) h rfl rfl (Readable.append_nil ready) fun _ => rfl
  case vmovLo => exact givesV_of_moveOp (execVmovLo q d r) h rfl rfl (Readable.append_nil ready) fun _ => (BitVec.ofNat_toNat ..).symm
  case vmovHi => exact givesV_of_moveOp (execVmovHi q d r) h rfl rfl (Readable.append_nil ready) fun _ => setWidth_ushiftRight_eq_ofNat _
  case vmovLane => exact givesV_of_moveOp (execVmovLane q d) h rfl rfl (Readable.append_nil ready) fun _ => rfl
  case vmovTid => exact givesV_of_moveOp (execVmovTid q d) h rfl rfl (Readable.append_nil ready) fun _ => rfl
  case vmovi => exact givesV_of_moveOp (execVmovi q d i) h rfl rfl (Readable.append_nil ready) fun _ => rfl

/-- Settles O33: each word's fields are read back, and each instruction is a vector operation or a move whose results are the
statement's. -/
theorem vectorLogicAndMoves : Obligations.VectorLogicAndMoves := ⟨vectorLogicWords, vectorLogicResults, vectorMoveResults⟩

end Sys2Proof.Machine
end

section
/-!
The uniform integer instructions (15 R361, R362): how the fields of their words are read back, and what they write.
-/
namespace Sys2Proof.Machine

/-- A uniform word with a destination (04 R80). -/
def uniformWord (maj : Nat) (d : BitVec 6) (rest : Nat) : Nat := 2 ^ 31 + maj * 2 ^ 25 + d.toNat * 2 ^ 19 + rest

/-- A word of UINT (15 R361). -/
def uintWord (d a b : BitVec 6) (fn : Nat) : Nat := uniformWord 0 d (a.toNat * 2 ^ 13 + b.toNat * 2 ^ 7 + fn)

/-- A uniform word with an immediate of 13 bits (15 R362). -/
def uimmediateWord (maj : Nat) (d a : BitVec 6) (i : BitVec 13) : Nat := uniformWord maj d (a.toNat * 2 ^ 13 + i.toNat)

/-- A word of the uniform shifts by an immediate (15 R362). -/
def ushiftWord (d a : BitVec 6) (op : Nat) (n : BitVec 6) : Nat := uniformWord 5 d (a.toNat * 2 ^ 13 + (op * 2 ^ 11 + n.toNat))

@[simp] theorem uintWord_fields (d a b : BitVec 6) {fn : Nat} (h : fn < 128) :
    bfld (uintWord d a b fn) 19 6 = d ∧ bfld (uintWord d a b fn) 13 6 = a ∧ bfld (uintWord d a b fn) 7 6 = b ∧
      fld (uintWord d a b fn) 7 6 = b.toNat ∧ fld (uintWord d a b fn) 0 7 = fn := by
  unfold uintWord uniformWord
  exact ⟨bfld_eq (by omega), bfld_eq (by omega), bfld_eq (by omega), by unfold fld; omega, by unfold fld; omega⟩

@[simp] theorem uimmediateWord_fields (maj : Nat) (d a : BitVec 6) (i : BitVec 13) :
    bfld (uimmediateWord maj d a i) 19 6 = d ∧ bfld (uimmediateWord maj d a i) 13 6 = a ∧ bfld (uimmediateWord maj d a i) 0 13 = i := by
  unfold uimmediateWord uniformWord
  exact ⟨bfld_eq (by omega), bfld_eq (by omega), bfld_eq (by omega)⟩

@[simp] theorem ushiftWord_fields (d a : BitVec 6) {op : Nat} (h : op < 4) (n : BitVec 6) :
    bfld (ushiftWord d a op n) 19 6 = d ∧ bfld (ushiftWord d a op n) 13 6 = a ∧ bfld (ushiftWord d a op n) 0 6 = n ∧
      fld (ushiftWord d a op n) 6 5 = 0 ∧ fld (ushiftWord d a op n) 11 2 = op := by
  unfold ushiftWord uniformWord
  exact ⟨bfld_eq (by omega), bfld_eq (by omega), bfld_eq (by omega), by unfold fld; omega, by unfold fld; omega⟩

/-- A uniform word is read by its major's decoder (04 R81). -/
theorem decodeWords_uniformWord {maj : Nat} (d : BitVec 6) {rest : Nat} (hm : maj < 2 ^ 6) (hr : rest < 2 ^ 19) :
    decodeWords [uniformWord maj d rest] = decodeUniform (uniformWord maj d rest) 0 ∧ fld (uniformWord maj d rest) 25 6 = maj := by
  have top : fld (uniformWord maj d rest) 31 1 = 1 := by unfold fld uniformWord; omega
  refine ⟨?_, by unfold fld uniformWord; omega⟩
  rw [decodeWords, decode, if_pos top]

theorem decodeWords_uintWord (d a b : BitVec 6) {fn : Nat} (h : fn < 128) :
    decodeWords [uintWord d a b fn] = decodeUint (uintWord d a b fn) := by
  obtain ⟨uniform, major⟩ := decodeWords_uniformWord d (maj := 0) (rest := a.toNat * 2 ^ 13 + b.toNat * 2 ^ 7 + fn) (by decide)
    (by omega)
  rw [uintWord, uniform, decodeUniform]
  simp only [major]

/-- The function codes from 16 up are reserved (15 R361). -/
theorem decodeUint_reserved {w : Nat} (h : 16 ≤ fld w 0 7) : decodeUint w = .error .reservedField := by
  unfold decodeUint
  split
  case h_17 => rfl
  all_goals omega

theorem decodeWords_ushi (d a : BitVec 6) {rest : Nat} (h : rest < 2 ^ 13) :
    decodeWords [uniformWord 5 d (a.toNat * 2 ^ 13 + rest)] = decodeUshi (uniformWord 5 d (a.toNat * 2 ^ 13 + rest)) := by
  obtain ⟨uniform, major⟩ := decodeWords_uniformWord d (maj := 5) (rest := a.toNat * 2 ^ 13 + rest) (by decide) (by omega)
  rw [uniform, decodeUniform]
  simp only [major]

/-- The words of the uniform shifts by an immediate (15 R362). -/
theorem decodeUshi_ushiftWord (d a n : BitVec 6) :
    decodeUshi (ushiftWord d a 0 n) = .ok (.ushlImm d a n) ∧ decodeUshi (ushiftWord d a 1 n) = .ok (.ushrImm d a n) ∧
      decodeUshi (ushiftWord d a 2 n) = .ok (.usarImm d a n) := by
  simp [decodeUshi]

/-- A uniform shift by an immediate with the code 3 or a field that must be zero and is not (15 R362). -/
theorem decodeUshi_reserved {w : Nat} (h : fld w 11 2 = 3 ∨ fld w 6 5 ≠ 0) : decodeUshi w = .error .reservedField := by
  unfold decodeUshi
  split
  case h_1 op | h_2 op | h_3 op => exact if_neg (h.resolve_left (by omega))
  case h_4 => rfl

/-- The words of the uniform operations with an immediate of 13 bits (15 R362). -/
theorem decodeWords_uimmediateWord (d a : BitVec 6) (i : BitVec 13) :
    decodeWords [uimmediateWord 1 d a i] = .ok (.uaddi d a i) ∧ decodeWords [uimmediateWord 2 d a i] = .ok (.uandi d a i) ∧
      decodeWords [uimmediateWord 3 d a i] = .ok (.uori d a i) ∧ decodeWords [uimmediateWord 4 d a i] = .ok (.uxori d a i) := by
  have uniform : ∀ maj, maj < 2 ^ 6 → decodeWords [uimmediateWord maj d a i] = decodeUniform (uimmediateWord maj d a i) 0 ∧
      fld (uimmediateWord maj d a i) 25 6 = maj := fun maj hm => decodeWords_uniformWord d hm (by omega)
  simp [uniform, decodeUniform, decodeUaddi, decodeUandi, decodeUori, decodeUxori]

/-- The word of UMOVI (15 R362). -/
theorem decodeWords_umovi (d : BitVec 6) (j : BitVec 19) : decodeWords [uniformWord 6 d j.toNat] = .ok (.umovi d j) := by
  obtain ⟨uniform, major⟩ := decodeWords_uniformWord d (maj := 6) (by decide) j.isLt
  have vd : bfld (uniformWord 6 d j.toNat) 19 6 = d := bfld_eq (by unfold uniformWord; omega)
  have immediate : bfld (uniformWord 6 d j.toNat) 0 19 = j := bfld_eq (by unfold uniformWord; omega)
  rw [uniform, decodeUniform]
  simp only [major]
  rw [decodeUmovi, vd, immediate]

/-- A word of UINT that its decoder refuses as reserved is an illegal instruction with SUB 0 (04 R68; 10 R222). -/
theorem illegal_uintWord (d a b : BitVec 6) {fn : Nat} (hf : fn < 128) (h : decodeUint (uintWord d a b fn) = .error .reservedField) :
    ∃ e, decodeWords [uintWord d a b fn] = .error e ∧ e.sub = 0 :=
  ⟨_, (decodeWords_uintWord d a b hf).trans h, rfl⟩

/-- UMOV has no second source: its field must be zero (15 R361). -/
theorem decodeUint_umov (d a b : BitVec 6) :
    decodeUint (uintWord d a b 15) = if b.toNat = 0 then .ok (.umov d a) else .error .reservedField := by
  simp [decodeUint]

/-- The code 3 and an amount of more than 6 bits are reserved (15 R362). -/
theorem illegal_uimmediateWord (d a : BitVec 6) (i : BitVec 13) (h : 3 * 2 ^ 11 ≤ i.toNat ∨ i.toNat / 2 ^ 6 % 2 ^ 5 ≠ 0) :
    ∃ e, decodeWords [uimmediateWord 5 d a i] = .error e ∧ e.sub = 0 := by
  have code : fld (uimmediateWord 5 d a i) 11 2 = i.toNat / 2 ^ 11 := by unfold fld uimmediateWord uniformWord; omega
  have zeros : fld (uimmediateWord 5 d a i) 6 5 = i.toNat / 2 ^ 6 % 2 ^ 5 := by unfold fld uimmediateWord uniformWord; omega
  refine ⟨_, (decodeWords_ushi d a i.isLt).trans (decodeUshi_reserved (w := uimmediateWord 5 d a i) ?_), rfl⟩
  rw [code, zeros]
  omega

/-- The words of the uniform integer instructions (15 R361, R362). -/
theorem uniformWords : Claims.UniformWords := by
  intro d a b fn i j n word ur ui reads illegal
  have uint : ∀ (k : Nat) {x}, k < 128 → decodeUint (uintWord d a b k) = .ok x → reads (ur k) x :=
    fun k _ hk h => (decodeWords_uintWord d a b hk).trans h
  have zero_iff : b = 0 ↔ b.toNat = 0 := BitVec.toNat_inj.symm
  have left : n.toNat = 0 * 2 ^ 11 + n.toNat := by omega
  obtain ⟨-, -, -, -, code⟩ := uintWord_fields d a b fn.isLt
  obtain ⟨uaddi, uandi, uori, uxori⟩ := decodeWords_uimmediateWord d a i
  obtain ⟨shl, shr, sar⟩ := decodeUshi_ushiftWord d a n
  refine ⟨uint 0 ?_ ?_, uint 1 ?_ ?_, uint 2 ?_ ?_, uint 3 ?_ ?_, uint 4 ?_ ?_, uint 5 ?_ ?_, uint 6 ?_ ?_, uint 7 ?_ ?_,
    uint 8 ?_ ?_, uint 9 ?_ ?_, uint 10 ?_ ?_, uint 11 ?_ ?_, uint 12 ?_ ?_, uint 13 ?_ ?_, uint 14 ?_ ?_,
    fun zero => uint 15 (by decide) ((decodeUint_umov d a b).trans (if_pos (zero_iff.mp zero))),
    fun other => illegal_uintWord d a b (by decide) ((decodeUint_umov d a b).trans (if_neg (mt zero_iff.mpr other))),
    fun reserved => illegal_uintWord d a b fn.isLt (decodeUint_reserved (by rwa [code])),
    uaddi, uandi, uori, uxori, left ▸ (decodeWords_ushi d a (by omega)).trans shl, (decodeWords_ushi d a (by omega)).trans shr,
    (decodeWords_ushi d a (by omega)).trans sar, illegal_uimmediateWord d a i, decodeWords_umovi d j⟩
  all_goals simp [decodeUint]

/-- An instruction whose meaning is a uniform operation gives its register the operation's result. -/
theorem givesS_of_uniformOp (m : State → Out) {i : Instr} {s : State} {w : Warp} {d : BitVec 6} {srcs : List Nat} {f : Cx → DWord}
    {x : DWord} (h : OnTurn s w) (arm : exec i s = m s) (meaning : m s = uniformOp d.toNat srcs f s)
    (clean : poisonedTable w srcs [] = false) (result : f (turnCx s w) = x) : GivesS i s w d x := by
  obtain ⟨t, w', next, own, frame, counted, slices, pending, moved, wrote⟩ := uniformOp_retires h d.toNat srcs f clean
  exact ⟨t, w', (arm.trans meaning).trans next, own, frame, counted, slices, pending, moved, result ▸ wrote⟩

/-- What the uniform integer instructions write (15 R361, R362). -/
theorem uniformResults : Claims.UniformResults := by
  intro s w d a b i j n h x y
  refine ⟨fun clean => ⟨?uadd, ?usub, ?umul, ?umulhI, ?umulhN, ?uand, ?uor, ?uxor, ?ushl, ?ushr, ?usar, ?uminI, ?uminN, ?umaxI,
    ?umaxN⟩, fun clean => ⟨?umov, ?uaddi, ?uandi, ?uori, ?uxori, ?ushlImm, ?ushrImm, ?usarImm⟩, ?umovi⟩
  case uadd => exact givesS_of_uniformOp (execUadd d a b) h rfl rfl clean (BitVec.add_def ..)
  case usub => exact givesS_of_uniformOp (execUsub d a b) h rfl rfl clean (sub_eq_ofInt ..)
  case umul => exact givesS_of_uniformOp (execUmul d a b) h rfl rfl clean (mul_eq_ofNat ..)
  case umulhI => exact givesS_of_uniformOp (execUmulhI d a b) h rfl rfl clean rfl
  case umulhN => exact givesS_of_uniformOp (execUmulhN d a b) h rfl rfl clean rfl
  case uand => exact givesS_of_uniformOp (execUand d a b) h rfl rfl clean rfl
  case uor => exact givesS_of_uniformOp (execUor d a b) h rfl rfl clean rfl
  case uxor => exact givesS_of_uniformOp (execUxor d a b) h rfl rfl clean rfl
  case ushl => exact givesS_of_uniformOp (execUshl d a b) h rfl rfl clean (ite_shiftLeft_eq_ofNat ..)
  case ushr => exact givesS_of_uniformOp (execUshr d a b) h rfl rfl clean (ite_ushiftRight_eq_ofNat ..)
  case usar => exact givesS_of_uniformOp (execUsar d a b) h rfl rfl clean (sshiftRight_min_eq_ofInt ..)
  case uminI => exact givesS_of_uniformOp (execUminI d a b) h rfl rfl clean (ite_slt_eq_min ..)
  case uminN => exact givesS_of_uniformOp (execUminN d a b) h rfl rfl clean (ite_ult_eq_min ..)
  case umaxI => exact givesS_of_uniformOp (execUmaxI d a b) h rfl rfl clean (ite_slt_eq_max ..)
  case umaxN => exact givesS_of_uniformOp (execUmaxN d a b) h rfl rfl clean (ite_ult_eq_max ..)
  case umov => exact givesS_of_uniformOp (execUmov d a) h rfl rfl clean rfl
  case uaddi => exact givesS_of_uniformOp (execUaddi d a i) h rfl rfl clean (add_signExtend ..)
  case uandi => exact givesS_of_uniformOp (execUandi d a i) h rfl rfl clean rfl
  case uori => exact givesS_of_uniformOp (execUori d a i) h rfl rfl clean rfl
  case uxori => exact givesS_of_uniformOp (execUxori d a i) h rfl rfl clean rfl
  case ushlImm => exact givesS_of_uniformOp (execUshlImm d a n) h rfl rfl clean (shiftLeft_eq_ofNat ..)
  case ushrImm => exact givesS_of_uniformOp (execUshrImm d a n) h rfl rfl clean (ushiftRight_eq_ofNat ..)
  case usarImm => exact givesS_of_uniformOp (execUsarImm d a n) h rfl rfl clean (sshiftRight_eq_ofInt ..)
  case umovi => exact givesS_of_uniformOp (execUmovi d j) h rfl rfl rfl rfl

/-- Settles O35: each word's fields are read back, and each instruction is a uniform operation whose result is the integers' of the
statement. -/
theorem uniformIntegers : Obligations.UniformIntegers := ⟨uniformWords, uniformResults⟩

end Sys2Proof.Machine
end
